-- ==== Sys2Proof/Word.lean ====
section
/-! DEFINITION. The sizes the spec fixes (R7) and the plain data types of the block: bytes, the
AmbeFrame, the 4 × 24 group cells, PCM samples and frames, and the triple of voice-model parameter
sets over any type of them (R8, R10 to R14, R16). An `ErrCount` of R16 is a natural, unbounded as R101
allows a model to take it (D8, log entry 4). Nothing here computes: bit order, buses and field
positions are in `Decode.lean`, the meanings under `Machine/`. -/

namespace Sys2Proof

/-! ## Sizes (R7, K3: each literal named once) -/

/-- `FRAME_BYTES`, bytes in one AmbeFrame (R7). -/
abbrev frameBytes : Nat := 9
/-- `FRAME_BITS`, bits in one AmbeFrame (R7). -/
abbrev frameBits : Nat := 72
/-- `N_GROUPS`, groups in the unpacked layout (R7). -/
abbrev nGroups : Nat := 4
/-- `GROUP_BITS`, bit positions in one group (R7). -/
abbrev groupBits : Nat := 24
/-- `N_DATA_GROUPS`, groups that receive frame bits: groups 0, 1, 2 (R7). -/
abbrev nDataGroups : Nat := 3
/-- `PCM_SAMPLES`, samples in one PcmFrame (R7). -/
abbrev pcmSamples : Nat := 160
/-- `SAMPLE_BITS`, bits of one signed sample (R7). -/
abbrev sampleBits : Nat := 16
/-- Wires of the group bus `G[95:0]`, 4 × 24 (R60, R66). -/
abbrev groupBusBits : Nat := 96
/-- Wires of a command word, format `CMD77` (R67). -/
abbrev cmdBits : Nat := 77

/-! ## Types (R16) -/

/-- A byte; bit 7 is the most significant (R10). -/
abbrev Byte := BitVec 8

/-- One AmbeFrame, `frame[0]` to `frame[8]` (R11): the byte-array view, which D6 makes normative. -/
abbrev AmbeFrame := Vector Byte frameBytes

/-- The canonical value of a frame field that a command ignores: all zeros (R68, D23). -/
def AmbeFrame.canonical : AmbeFrame := Vector.replicate frameBytes 0

/-- One group: its cell at position `p` is the `p`-th bit delivered to it (R12). -/
abbrev Group := Vector Bool groupBits

/-- The unpacked layout: `g[j][p]` is the cell at position `p` of group `j` (R12, R62). The cells are
primary and the words `W(j)` a view of them (R13). -/
abbrev Groups := Vector Group nGroups

/-- One PCM sample, 16 bits signed, in two's complement (R14, D27). -/
abbrev Sample := BitVec sampleBits

/-- One PcmFrame: `pcm[0]`, the earliest in time, to `pcm[159]` (R14, R43, D20). -/
abbrev PcmFrame := Vector Sample pcmSamples

/-- The triple `(cur, prev, prev_enh)` of R22 over a type `PS` of voice-model parameter sets. The type
is a parameter (R8): what a parameter set holds is open (N2), and no operation on a triple looks into
its components. -/
structure Triple (PS : Type) where
  /-- `st.cur`, the current parameter set. -/
  cur : PS
  /-- `st.prev`, the previous parameter set. -/
  prev : PS
  /-- `st.prev_enh`, the previous enhanced parameter set. -/
  prevEnh : PS
deriving DecidableEq, Repr, Inhabited

end Sys2Proof
end

