-- ==== Sys2Proof/Config.lean ====
section
/-! DEFINITION. What is fixed for one block and never changed by a command (R29, R34): the constants
the source gives (R7), the error-count width of this block's ports (`ERR_W`, D8), and the open
parameters. Those that shape behaviour are arguments: `Params` over a type of parameter sets and a
type of quality levels, both arbitrary. This block's own are opaque constants, of which nothing can
be proved but their types (R8, R9, R115, D15, D19). -/

namespace Sys2Proof

namespace Config

/-- `MUTE_THRESHOLD`, the largest total error count that is accepted: fixed, not configurable
(R7, R103). -/
abbrev muteThreshold : Nat := 7

/-- `SAMPLE_RATE_HZ`, nominal; no rule of the block reads it (R7). -/
def sampleRateHz : Nat := 8000

/-- `FRAME_MS`, nominal audio duration of one frame; no rule reads it (R7). -/
def frameMs : Nat := 20

/-- `ERR_W` of this block: the spec's default, at which the opcode table's row DECIDE is written out
(R8, D8). Every definition that depends on `ERR_W` takes it as an argument; this value is what the
ports of the machine's own step have. DESIGN CHOICE, log entry 4. -/
abbrev errW : Nat := 8

/-- `DIAG_BYTES`, the size of the diagnostic scratch buffer: open (R8, R44, N7). -/
opaque diagBytes : Nat

/-- `|ParamSet|`, the number of bits of a parameter set on `eng_st_o`: open (the table's row SYNTH,
R22, N2). -/
opaque paramSetBits : Nat

/-- `|Quality|`, the number of bits of the quality level on `eng_q`: open (the table's row SYNTH,
N3). -/
opaque qualityBits : Nat

/-- `VERSION`, the process-wide version constant: open (R9). Only the host's `info` shows it. The
spec gives neither its value nor its format (N8); that its type is a character string is the
model's, DESIGN CHOICE, log entry 16. -/
opaque version : String

end Config

/-- Content of the diagnostic buffer `DIAG`, addresses 0 to `DIAG_BYTES` − 1 (R40, R44). -/
abbrev Diag := Vector Byte Config.diagBytes

/-! ## The parameters of the step, for any types (R8, R34) -/

/-- What the Vocoder Engine hands back from one call (R115, R117). -/
structure EngineResult (PS : Type) where
  /-- The 160 samples. -/
  pcm : PcmFrame
  /-- `errs_primary`. -/
  e1 : Nat
  /-- `errs_secondary`. -/
  e2 : Nat
  /-- The updated triple `st'`. -/
  st : Triple PS
  /-- The advisory diagnostic string, no part of the contract (R119). -/
  diag : Diag
deriving DecidableEq, Repr, Inhabited

/-- The parameters of the block's step (R8, R34), over the types `ParamSet` and `Quality`, which are
parameters too. `engine` is an arbitrary total function of the groups, the triple and the quality
level, of which nothing else is assumed (R121, D15). -/
structure Params (PS Q : Type) where
  /-- `Engine.synth` (R115). -/
  engine : Groups → Triple PS → Q → EngineResult PS
  /-- `STATE_DEFAULT`; its three components are not assumed equal (R8, D19). -/
  stateDefault : Triple PS
  /-- `Q_HIGH` (R8, R120). -/
  qHigh : Q

/-! ## This block's own -/

/-- A voice-model parameter set as this block's wires and register carry it: `|ParamSet|` bits, the
number open (the table's row SYNTH, R8, R22, N2). Log entry 3. -/
abbrev ParamSet := BitVec Config.paramSetBits

/-- The parameter set of zero bits everywhere. -/
def ParamSet.zeros : ParamSet := BitVec.ofNatLT 0 (Nat.two_pow_pos _)

/-- The vocoder quality level on this block's wires: `|Quality|` bits, the number open (R8, N3).
Log entry 3. -/
abbrev Quality := BitVec Config.qualityBits

/-- The DecoderState triple of this block (R22). -/
abbrev DecoderState := Triple ParamSet

namespace Config

/-- The Vocoder Engine of this block: an uninterpreted function (R115, R121, D15; log entry 2). -/
opaque engine : Groups → DecoderState → Quality → EngineResult ParamSet

/-- `STATE_DEFAULT` of this block: open (R8, N2, D19). -/
opaque stateDefault : DecoderState

/-- `Q_HIGH` of this block: open (R8, N3, D19). -/
opaque qHigh : Quality

/-- The parameters of this block, all open. -/
def params : Params ParamSet Quality where
  engine := engine
  stateDefault := stateDefault
  qHigh := qHigh

end Config

end Sys2Proof
end

