-- ==== Sys2Proof/Syntax.lean ====
section
/-! DEFINITION. The instructions: one constructor per row of `spec/opcode_table.json`. Four are the
Decoder commands of format `CMD77`; UNPACK and DECIDE are the two combinational units on their own
test ports (R92, R108); SYNTH is the call on the engine port (R115, R125). Also the words in which
they arrive, one kind per format (R60). -/

namespace Sys2Proof

/-- The instructions of the block. A field a command ignores is no operand of its constructor
(R68, D23). DECODE ignores `frame` only when `f = 0`; its operand is then the field's canonical value. -/
inductive Instr where
  /-- CREATE: no operand; `h`, `f`, `o` and `frame` are ignored (R131). -/
  | create
  /-- RESET: `h`, the handle is present (R132). -/
  | reset (h : Bool)
  /-- DECODE: `h`, `f`, `o`, the handle, the frame and the output buffer are present, and the frame
  (R133). -/
  | decode (h f o : Bool) (frame : AmbeFrame)
  /-- DESTROY: `h`, the handle is present (R134). -/
  | destroy (h : Bool)
  /-- UNPACK on the ports `unp_frame`, `unp_grp` (R85, R92). -/
  | unpack (frame : AmbeFrame)
  /-- DECIDE on the ports `dec_e1`, `dec_e2`, `dec_total`, `dec_accepted` (R100, R108). -/
  | decideErrs (e1 e2 : Nat)
  /-- SYNTH, one call on the engine port: the groups on `eng_grp`, the triple on `eng_st_o`; the
  quality level is always `Q_HIGH` (R115, R116, R120). Log entry 6. -/
  | synth (groups : Groups) (st : DecoderState)
deriving DecidableEq, Repr

/-- The formats of the opcode table's rows (R60; `ENGINE_CALL` is the row SYNTH's). -/
inductive Format where
  /-- `CMD77`, a Decoder command on the command port (R67). -/
  | cmd77
  /-- `AMBE72`, a frame on the port `unp_frame` (R61). -/
  | ambe72
  /-- `ERRPAIR`, two counts on the ports `dec_e1`, `dec_e2` (R60, R101). -/
  | errPair
  /-- `ENGINE_CALL`, the group bus `eng_grp` with the triple on `eng_st_o` (R72, R115). -/
  | engineCall
deriving DecidableEq, Repr

/-- A word as it stands on the wires of its port, in a block whose error counts have `errW` bits
(`ERR_W`, R8). The ports' widths are the types' widths, so a short or a long word cannot be written
down (R47, D6). -/
inductive PortWordOf (errW : Nat) where
  /-- A 77-bit command word (R67). -/
  | cmd (w : BitVec cmdBits)
  /-- The 72-bit bus `F` on `unp_frame` (R65, R92). -/
  | unp (w : BitVec frameBits)
  /-- `dec_e1` above `dec_e2`, each `ERR_W` bits (R108 and the table's row DECIDE). -/
  | dec (w : BitVec (2 * errW))
  /-- The 96-bit bus `G` on `eng_grp`, and the triple on the separate port `eng_st_o` (R66, R72). -/
  | eng (w : BitVec groupBusBits) (st : DecoderState)
deriving DecidableEq, Repr

/-- A word on a port of this block. -/
abbrev PortWord := PortWordOf Config.errW

/-- The format of an instruction, as the opcode table lists it. -/
def Instr.format : Instr → Format
  | .create => .cmd77
  | .reset _ => .cmd77
  | .decode _ _ _ _ => .cmd77
  | .destroy _ => .cmd77
  | .unpack _ => .ambe72
  | .decideErrs _ _ => .errPair
  | .synth _ _ => .engineCall

/-- The format a port carries. -/
def PortWordOf.format {errW : Nat} : PortWordOf errW → Format
  | .cmd _ => .cmd77
  | .unp _ => .ambe72
  | .dec _ => .errPair
  | .eng _ _ => .engineCall

end Sys2Proof
end

