-- ==== Sys2Proof/WellFormed.lean ====
section
/-! DEFINITION. Which instructions have a word: the checks on operands that their types leave open. -/

namespace Sys2Proof

/-- A count fits a port of `errW` bits (R16, R101). -/
def errFits (errW e : Nat) : Bool := e < 2 ^ errW

/-- A frame that DECODE ignores stands at its canonical value (R68). Log entry 19. -/
def frameTaken (f : Bool) (frame : AmbeFrame) : Bool := f || frame == .canonical

/-- Group 3 is all zero: "reserved and always zero" (R86, R116). -/
def group3Zero (g : Groups) : Bool := g[3].toList.all (! ·)

/-- The operands are values the instruction's word can carry. Every frame is one (R61, R74), but for one
that DECODE with `f = 0` ignores, of which only the canonical value is an operand (R68); DECIDE's
counts must fit their ports (R101), whose width is `errW`; SYNTH's group 3 must be zero (R116). -/
def wellFormed (i : Instr) (errW : Nat := Config.errW) : Bool :=
  match i with
  | .create => true
  | .reset _ => true
  | .decode _ f _ frame => frameTaken f frame
  | .destroy _ => true
  | .unpack _ => true
  | .decideErrs e1 e2 => errFits errW e1 && errFits errW e2
  | .synth g _ => group3Zero g

/-- `wellFormed` as a proposition. -/
abbrev WellFormed (i : Instr) (errW : Nat := Config.errW) : Prop := wellFormed i errW = true

end Sys2Proof
end

