-- ==== Sys2Proof/Decode.lean ====
section
/-! DEFINITION. Bit order and buses (R11, R13, R65, R66), the decoder of each port's words (R61, R67
to R69, R74), the encoder, and the word the opcode table numbers. -/

namespace Sys2Proof

/-! ## Bit order and buses -/

/-- The extraction sequence `e(k) = frame[k div 8][7 − (k mod 8)]`, for k in 0..71 (R11, R45). -/
def extract (frame : AmbeFrame) (k : Nat) : Bool :=
  (frame.getD (k / 8) 0).getLsbD (7 - k % 8)

/-- The bus `F`: `F[71 − k] = e(k)` (R65, D6). -/
def frameBus (frame : AmbeFrame) : BitVec frameBits :=
  BitVec.ofFnBE fun k : Fin frameBits => extract frame k.val

/-- The bytes on the bus: `frame[b] = F[71 − 8b : 64 − 8b]` (R65). -/
def frameOfBus (F : BitVec frameBits) : AmbeFrame :=
  Vector.ofFn fun b => F.extractLsb' (64 - 8 * b.val) 8

/-- The cell at position `p` of group `j`; zero outside the layout (R12). -/
def cell (g : Groups) (j p : Nat) : Bool :=
  ((g[j]?).bind (·[p]?)).getD false

/-- The bus `G`: `G[95 − 24j − p] = g[j][p]` (R66, D7). -/
def groupsBus (g : Groups) : BitVec groupBusBits :=
  BitVec.ofFnBE fun q : Fin groupBusBits => cell g (q.val / groupBits) (q.val % groupBits)

/-- The cells on the bus: `g[j][p] = G[95 − 24j − p]` (R66). -/
def groupsOfBus (G : BitVec groupBusBits) : Groups :=
  Vector.ofFn fun j => Vector.ofFn fun p => G.getLsbD (95 - 24 * j.val - p.val)

/-! ## The decoder -/

/-- Why a word is no instruction. -/
inductive Reject where
  /-- A word on the engine port whose group 3 is not zero: "group 3 is reserved and always zero"
  (R86, R116; mask and match of the table's row SYNTH). -/
  | group3NotZero
deriving DecidableEq, Repr

/-- Field `op`, bits 76:75 (R67). -/
def cmdOp (w : BitVec cmdBits) : BitVec 2 := w.extractLsb' 75 2
/-- Field `h`, bit 74 (R67). -/
def cmdH (w : BitVec cmdBits) : Bool := w.getLsbD 74
/-- Field `f`, bit 73 (R67). -/
def cmdF (w : BitVec cmdBits) : Bool := w.getLsbD 73
/-- Field `o`, bit 72 (R67). -/
def cmdO (w : BitVec cmdBits) : Bool := w.getLsbD 72
/-- Field `frame`, bits 71:0, the bus `F` (R65, R67). When `f = 0` it is not looked at and stands for
its canonical value (R68). Log entry 19. -/
def cmdFrame (w : BitVec cmdBits) : AmbeFrame :=
  if cmdF w then frameOfBus (w.extractLsb' 0 frameBits) else .canonical

/-- The command of a `CMD77` word: the opcode map of R69. All four values of `op` name a command
(R74), and the fields a command ignores are not looked at (R68). -/
def decodeCmd (w : BitVec cmdBits) : Instr :=
  if cmdOp w = 0b00#2 then .create
  else if cmdOp w = 0b01#2 then .reset (cmdH w)
  else if cmdOp w = 0b10#2 then .decode (cmdH w) (cmdF w) (cmdO w) (cmdFrame w)
  else .destroy (cmdH w)

/-- The instruction a port's word stands for in a block with `errW`-bit counts, or the name of what
makes it none. -/
def decodeAt {errW : Nat} : PortWordOf errW → Except Reject Instr
  | .cmd w => .ok (decodeCmd w)
  | .unp w => .ok (.unpack (frameOfBus w))
  | .dec w =>
      .ok (.decideErrs (w.extractLsb' errW errW).toNat (w.extractLsb' 0 errW).toNat)
  | .eng w st =>
      if w.extractLsb' 0 groupBits = 0 then .ok (.synth (groupsOfBus w) st)
      else .error .group3NotZero

/-- The instruction a word on a port of this block stands for. -/
abbrev decode (w : PortWord) : Except Reject Instr := decodeAt w

/-! ## The encoder -/

/-- A `CMD77` word from its fields, `{op, h, f, o, frame}` (R67, D2). -/
def cmdWord (op : BitVec 2) (h f o : Bool) (F : BitVec frameBits) : BitVec cmdBits :=
  op ++ BitVec.ofBool h ++ BitVec.ofBool f ++ BitVec.ofBool o ++ F

/-- An `ERRPAIR` word, `e1` in the upper field (the table's row DECIDE). -/
def errPairWord (errW e1 e2 : Nat) : BitVec (2 * errW) :=
  (BitVec.ofNat errW e1 ++ BitVec.ofNat errW e2).cast (Nat.two_mul errW).symm

/-- The field `frame` of a DECODE: the bus of a frame that is present, or zeros, the canonical encoding
of a field the command ignores (R65, R68). -/
def frameField (f : Bool) (frame : AmbeFrame) : BitVec frameBits :=
  if f then frameBus frame else 0

/-- The word of an instruction in a block with `errW`-bit counts; a field the command ignores is 0,
its canonical encoding (R68). -/
def encode (i : Instr) (errW : Nat := Config.errW) : PortWordOf errW :=
  match i with
  | .create => .cmd (cmdWord 0b00#2 false false false 0)
  | .reset h => .cmd (cmdWord 0b01#2 h false false 0)
  | .decode h f o frame => .cmd (cmdWord 0b10#2 h f o (frameField f frame))
  | .destroy h => .cmd (cmdWord 0b11#2 h false false 0)
  | .unpack frame => .unp (frameBus frame)
  | .decideErrs e1 e2 => .dec (errPairWord errW e1 e2)
  | .synth g st => .eng (groupsBus g) st

/-! ## The words the opcode table numbers -/

/-- The port word whose bits are `w`, the port told by the row's width: 77 to 80 bits are a command
(`CMD77` in whole bytes), 72 a frame for UNPACK, at most 16 an error pair for DECIDE, any other
width the engine port's group bus with every bit of `eng_st_o` zero. None where `w` does not fit the
port's wires. Log entry 7. -/
def tablePortWord (nbits w : Nat) : Option PortWord :=
  if nbits ≤ 2 * Config.errW then
    if w < 2 ^ (2 * Config.errW) then some (.dec (BitVec.ofNat _ w)) else none
  else if nbits = frameBits then
    if w < 2 ^ frameBits then some (.unp (BitVec.ofNat _ w)) else none
  else if cmdBits ≤ nbits ∧ nbits ≤ 80 then
    if w < 2 ^ cmdBits then some (.cmd (BitVec.ofNat _ w)) else none
  else
    if w < 2 ^ groupBusBits then some (.eng (BitVec.ofNat _ w) ⟨.zeros, .zeros, .zeros⟩) else none

/-- The instruction the decoder reads from the bits `w` of a table row of `nbits` bits. -/
def decodeTableWord (nbits w : Nat) : Option Instr :=
  match tablePortWord nbits w with
  | none => none
  | some pw =>
    match decode pw with
    | .ok i => some i
    | .error _ => none

end Sys2Proof
end

