-- ==== Sys2Proof/Machine/State.lean ====
section
/-! DEFINITION. The state of one instance of the block (R18, R20, R31, R32), the outputs on its ports
(R70, R72), the caller's side of the interface (the words it presents, its PCM buffer), the reasons a
step stops, and the machine after power-on reset (R210, R211). -/

namespace Sys2Proof.Machine

/-! ## The lifecycle register and the status codes -/

/-- The lifecycle register `life` (R21). D5: an enumeration, its encoding apart. -/
inductive Life where
  /-- Uninitialized: no DecoderState is owned; also after DESTROY (R21, D13). -/
  | uninit
  /-- Ready: after CREATE or RESET (R21). -/
  | ready
  /-- Active: after at least one DECODE (R21). -/
  | active
deriving DecidableEq, Repr

/-- The status of a response (R71). -/
inductive Status where
  /-- Success, a muted frame included (R184). -/
  | ok
  /-- A missing handle, frame or output buffer (R181). -/
  | invalidArg
  /-- CREATE while a decoder is live (R182). -/
  | allocFail
  /-- A command on a decoder that does not exist (R183). -/
  | lifecycle
deriving DecidableEq, Repr

/-! ## What the ports show -/

/-- The data fields of an `OK` response to DECODE (R70). -/
structure DecodeData where
  /-- The engine's PcmFrame, delivered whether or not `accepted` (R141). -/
  pcm : PcmFrame
  /-- `errs_primary + errs_secondary` (R100, R105). -/
  total : Nat
  /-- `total ≤ 7` (R102). -/
  accepted : Bool
deriving DecidableEq, Repr

/-- The response to one command, format `RSP` (R70). `data` is `none` where the fields `accepted`,
`total` and `pcm` hold no value (D16, U11). -/
structure Response where
  /-- Field `status` (R71). -/
  status : Status
  /-- Fields `pcm`, `total`, `accepted`, together present or absent. -/
  data : Option DecodeData
deriving DecidableEq, Repr

/-- What the block drives on the engine port: `eng_grp`, `eng_st_o`, `eng_q` with `eng_req` (R72, R125). -/
structure EngineRequest where
  /-- `eng_grp`, all four groups (R116 a). -/
  grp : Groups
  /-- `eng_st_o`, the triple before the call (R116 b). -/
  st : DecoderState
  /-- `eng_q`, always `Q_HIGH` in a call the block makes (R116 c, R120). -/
  q : Quality
deriving DecidableEq, Repr

/-- What the engine answers with `eng_ack`: `eng_pcm`, `eng_e1`, `eng_e2`, `eng_st_i` (R72, R125). The
diagnostic string is on no port (R119). -/
structure EngineAnswer where
  /-- `eng_pcm`. -/
  pcm : PcmFrame
  /-- `eng_e1`, `errs_primary`. -/
  e1 : Nat
  /-- `eng_e2`, `errs_secondary`. -/
  e2 : Nat
  /-- `eng_st_i`, the triple after the call. -/
  st : DecoderState
deriving DecidableEq, Repr

/-- One call of the engine: one request, one acknowledge (R125). -/
structure EngineCall where
  /-- The request. -/
  req : EngineRequest
  /-- The engine's answer to it. -/
  ans : EngineAnswer
deriving DecidableEq, Repr

/-- The verdict on the ports `dec_accepted`, `dec_total` (R100, R108). -/
structure Verdict where
  /-- `dec_accepted`. -/
  accepted : Bool
  /-- `dec_total`. -/
  total : Nat
deriving DecidableEq, Repr

/-- What the output ports showed in the last step. None of it is a register: the next step's outputs
take its place, and no command reads it (R25, R28, D16). -/
structure Ports where
  /-- `rsp_valid` with `rsp_status`, `rsp_accepted`, `rsp_total`, `rsp_pcm`. -/
  rsp : Option Response
  /-- `eng_req` with `eng_grp`, `eng_st_o`, `eng_q`, and the answer to it. -/
  eng : Option EngineCall
  /-- `unp_grp` of the UNPACK unit alone (R92). -/
  unp : Option Groups
  /-- `dec_total`, `dec_accepted` of the DECIDE unit alone (R108). -/
  dec : Option Verdict
deriving DecidableEq, Repr

/-- No response, no request, nothing on the test ports (R210: `rsp_valid = 0`, `eng_req = 0`). -/
def Ports.quiet : Ports where
  rsp := none
  eng := none
  unp := none
  dec := none

/-! ## What the caller presents -/

/-- What can arrive from outside at a step. -/
inductive Input where
  /-- A word on one of the ports. -/
  | word (w : PortWord)
  /-- `rst_n` is asserted (R210). -/
  | powerOn
deriving DecidableEq, Repr

/-! ## The state -/

/-- The state of one instance and of what stands at its ports. `life` and `st` are the only registers
that persist (R20); `diag` is scratch that holds no value between calls (R31); `ports` is the last
step's output (R32); `pcmBuf` and `inputs` are the caller's; `lifecycleFault` is the model's own. -/
structure State where
  /-- The lifecycle register (R21). -/
  life : Life
  /-- The DecoderState register; `none` is the spec's "holds no value" (R22, R23). -/
  st : Option DecoderState
  /-- The diagnostic scratch buffer `DIAG`; its content is `none` before and after a call (R31, R32). -/
  diag : Option Diag
  /-- The response outputs and the other output ports (R32, R70, R72). -/
  ports : Ports
  /-- The caller's output buffer, operand space `PCM`: the PcmFrame last written to it, if any
  (R40, R43, R57). It is the caller's, not the block's (R25). Log entry 9. -/
  pcmBuf : Option PcmFrame
  /-- The caller's words in the order it presents them, the next first (R34, R50). Log entry 8. -/
  inputs : List Input
  /-- The model's own record that a command has ended `LIFECYCLE` (U1, U3, U6: "a failure the model
  records"). No command reads it; once true it stays true. Log entry 1. -/
  lifecycleFault : Bool
deriving DecidableEq, Repr

/-- The instance right after power-on reset: `(life, st) = (UNINIT, none)`, idle, every output `none`
(R32, R210, R211), and nothing presented by the caller. -/
def State.reset : State where
  life := .uninit
  st := none
  diag := none
  ports := Ports.quiet
  pcmBuf := none
  inputs := []
  lifecycleFault := false

/-! ## Why a step stops -/

/-- The faults. -/
inductive Fault where
  /-- Raised by DECODE when `life` is READY or ACTIVE and `st` holds no value: R23 and U8 let no rule
  read `st` then ("a model that represents it must make any read a `fault`"). No run from reset
  reaches such a state (`Safety.Inv`). Safe: the machine stops where the spec gives nothing. -/
  | stHasNoValue
deriving DecidableEq, Repr

/-- The refusals. -/
inductive Refusal where
  /-- Raised by `exec` for an instruction without a meaning; no arm does. Safe. -/
  | notModelled (mnemonic : String)
  /-- Raised by `step` for a word on a port that stands for no instruction, with the decoder's reason:
  on the engine port a group 3 that is not zero, which no rule lets the block drive (R86, R116). Safe. -/
  | illegalWord (r : Reject)
deriving DecidableEq, Repr

/-- The outcome of one step. -/
abbrev StepResult := Host.Outcome State Fault Refusal

end Sys2Proof.Machine
end

