-- ==== Sys2Proof/Machine/Operands.lean ====
section
/-! DEFINITION. Operands and operand spaces: the presence qualifiers (R68), UNPACK's layout of the
frame (R62, R63, R85) with the source's loop beside it, the inverse map (R64, R89), the group words
(R13, R90), sample and response buses (R70, R71, D20), and the code of `life` (R21). -/

namespace Sys2Proof.Machine

/-! ## Presence of operands -/

/-- Whether every reference DECODE takes is present (R68, R133). -/
def decodeArgsPresent (h f o : Bool) : Bool := h && f && o

/-! ## UNPACK -/

/-- UNPACK: `g[j][p] = e(24j + p)` for the groups 0 to 2, and 0 in group 3 (R62, R63, R85, R86). -/
def unpack (frame : AmbeFrame) : Groups :=
  Vector.ofFn fun j => Vector.ofFn fun p =>
    if j.val < nDataGroups then extract frame (groupBits * j.val + p.val) else false

/-- `MemWrite(GROUP, (j, p), 1, bit)`: one cell is set, the others stay (R15, R42). -/
def writeCell (g : Groups) (j p : Nat) (bit : Bool) : Groups :=
  match g[j]? with
  | some grp => g.setIfInBounds j (grp.setIfInBounds p bit)
  | none => g

/-- The first loop of R85: the 72 extracted bits, one after the other, into the groups 0 to 2. -/
def unpackDataBits (frame : AmbeFrame) (g : Groups) : Groups :=
  (List.range frameBits).foldl
    (fun acc k => writeCell acc (k / groupBits) (k % groupBits) (extract frame k)) g

/-- The second loop of R85: group 3 is explicitly zero-filled. -/
def zeroFillGroup3 (g : Groups) : Groups :=
  (List.range groupBits).foldl (fun acc p => writeCell acc 3 p false) g

/-- The pseudocode of R85 as it stands, run over the cells `before`, whatever they hold. `unpack` is
the wiring it describes. -/
def unpackLoop (frame : AmbeFrame) (before : Groups) : Groups :=
  zeroFillGroup3 (unpackDataBits frame before)

/-- The frame recovered from a layout: `frame[b][i] = g[b div 3][8 × (b mod 3) + (7 − i)]` (R89). -/
def repack (g : Groups) : AmbeFrame :=
  Vector.ofFn fun b => BitVec.ofFnLE fun i : Fin 8 =>
    cell g (b.val / nDataGroups) (8 * (b.val % nDataGroups) + (7 - i.val))

/-- The group word `W(j)`, `W(j)[23 − p] = g[j][p]` (R13, D7): a view of the cells. -/
def groupWord (g : Groups) (j : Nat) : BitVec groupBits :=
  BitVec.ofFnBE fun p : Fin groupBits => cell g j p.val

/-- The number of ones in a layout (R89). -/
def onesInGroups (g : Groups) : Nat :=
  (g.toList.map fun grp => grp.toList.count true).sum

/-- The number of ones in a frame, byte by byte (R89). -/
def onesInFrame (frame : AmbeFrame) : Nat :=
  (frame.toList.map fun b => (List.range 8).countP fun i => b.getLsbD i).sum

/-! ## Codes and buses of a response -/

/-- The two bits of `life` (R21, D5); the code `0b11` is no value's. -/
def lifeCode : Life → BitVec 2
  | .uninit => 0b00
  | .ready => 0b01
  | .active => 0b10

/-- The status codes (R71, D4). -/
def statusCode : Status → BitVec 2
  | .ok => 0b00
  | .invalidArg => 0b01
  | .allocFail => 0b10
  | .lifecycle => 0b11

/-- The samples on a bus: `pcm_bus[16n + 15 : 16n] = pcm[n]` (R70, D20). -/
def pcmBus (pcm : PcmFrame) : BitVec (sampleBits * pcmSamples) :=
  BitVec.ofFnLE fun q : Fin (sampleBits * pcmSamples) =>
    (pcm.getD (q.val / sampleBits) 0).getLsbD (q.val % sampleBits)

/-- The data fields packed, `{accepted, total, pcm_bus}`, with `total` on `errW + 1` wires (R70). `none`
where the total does not fit them: counts of `errW` bits never give such a total (R101), and nothing
is cut off one that an engine of wider counts gives. -/
def dataBus (errW : Nat) (d : DecodeData) :
    Option (BitVec (1 + (errW + 1) + sampleBits * pcmSamples)) :=
  if d.total < 2 ^ (errW + 1) then
    some (BitVec.ofBool d.accepted ++ BitVec.ofNat (errW + 1) d.total ++ pcmBus d.pcm)
  else none

/-- The packed response `{status, accepted, total, pcm_bus}` (R70). The status is on its wires in every
response. Where the data fields hold no value their wires carry `undriven`, which may be anything and
which no rule reads (D16, U11). -/
def responseBus (errW : Nat) (undriven : BitVec (1 + (errW + 1) + sampleBits * pcmSamples))
    (r : Response) : Option (BitVec (2 + (1 + (errW + 1) + sampleBits * pcmSamples))) :=
  match r.data with
  | none => some (statusCode r.status ++ undriven)
  | some d => (dataBus errW d).map fun b => statusCode r.status ++ b

/-- A sample's value as a signed integer (R14, D27). -/
def sampleValue (x : Sample) : Int := x.toInt

end Sys2Proof.Machine
end

