-- ==== Sys2Proof/Machine/Flags.lean ====
section
/-! DEFINITION. DECIDE, the MutingPolicy: the adder and the comparator on naturals (R100 to R103), and
the same two on wires of any width (R101, R108). `accepted` is the block's one flag-like output and
no register (R28). -/

namespace Sys2Proof.Machine

/-- The adder: the exact sum, it never wraps (R101). -/
def totalErrors (e1 e2 : Nat) : Nat := e1 + e2

/-- The comparator: `total ≤ MUTE_THRESHOLD`, unsigned (R102, R103). -/
def acceptsTotal (total : Nat) : Bool := total ≤ Config.muteThreshold

/-- DECIDE(e1, e2) (R100). -/
def verdict (e1 e2 : Nat) : Verdict where
  accepted := acceptsTotal (totalErrors e1 e2)
  total := totalErrors e1 e2

/-- The adder on wires: `zext_(w+1)(e1) + zext_(w+1)(e2)`, one bit wider than its inputs (R101). -/
def adderBits {w : Nat} (e1 e2 : BitVec w) : BitVec (w + 1) :=
  e1.zeroExtend (w + 1) + e2.zeroExtend (w + 1)

/-- The comparator's gate: `NOT (OR of total[w : 3])` (R108). The slice is empty for `w < 3` (C8). -/
def acceptGate {w : Nat} (total : BitVec (w + 1)) : Bool :=
  !((List.range (w + 1)).any fun i => decide (3 ≤ i) && total.getLsbD i)

end Sys2Proof.Machine
end

