-- ==== Sys2Proof/Machine/Ops.lean ====
section
/-! DEFINITION. The named operations the meanings share: registers (R20 to R24), the response (R70),
a failure, which is this block's only exception (R130, R186 to R188), the engine call (R115 to R122),
the caller's PCM buffer (R57), power-on reset (R210), idling (R198), and taking the next word from
the caller (R50, R73). -/

namespace Sys2Proof.Machine

/-! ## The registers -/

/-- `st <- STATE_DEFAULT`, `life <- READY`: the whole triple is written (R22, R131, R132). -/
def State.initDecoder (P : Params ParamSet Quality) (s : State) : State :=
  { s with life := .ready, st := some P.stateDefault }

/-- `st <- st'`, `life <- ACTIVE`: whatever the engine returned, unconditionally (R118, R133). -/
def State.storeDecoder (st : DecoderState) (s : State) : State :=
  { s with life := .active, st := some st }

/-- `st <- none`, `life <- UNINIT` (R23, R134, D13). -/
def State.releaseDecoder (s : State) : State :=
  { s with life := .uninit, st := none }

/-! ## The response, and failures -/

/-- The one response to a command, alone on the ports (R70, R73). -/
def State.respond (r : Response) (s : State) : State :=
  { s with ports := { Ports.quiet with rsp := some r } }

/-- A response without data fields (R70). -/
def State.respondStatus (f : Status) (s : State) : State :=
  s.respond { status := f, data := none }

/-- The model's record of a `LIFECYCLE` ending (U1, U3, U6; log entry 1). -/
def State.recordFailure (f : Status) (s : State) : State :=
  { s with lifecycleFault := s.lifecycleFault || decide (f = .lifecycle) }

/-- `raise f`: the command ends with status `f`; `life`, `st` and the caller's buffer keep what they
held, the engine is not called, no data field holds a value, and the block is ready for the next
command (R130, R186). There is no handler, so nothing is saved and nothing returns (R188). -/
def raise (f : Status) (s : State) : StepResult :=
  .next ((s.recordFailure f).respondStatus f)

/-! ## The engine -/

/-- The engine's scratch buffer after a call: no value, whatever the engine wrote (R31, R119). -/
def State.dropDiag (s : State) : State :=
  { s with diag := none }

/-- `Engine.synth(g, st, Q_HIGH)`, with what the ports show of it (R115 to R117, R125). -/
def callEngine (P : Params ParamSet Quality) (g : Groups) (st : DecoderState) : EngineCall :=
  let r := P.engine g st P.qHigh
  { req := { grp := g, st := st, q := P.qHigh }
    ans := { pcm := r.pcm, e1 := r.e1, e2 := r.e2, st := r.st } }

/-- The data fields of DECODE's response: the engine's samples unchanged, and the verdict on its two
counts (R100, R105, R141). -/
def decodeData (a : EngineAnswer) : DecodeData where
  pcm := a.pcm
  total := (verdict a.e1 a.e2).total
  accepted := (verdict a.e1 a.e2).accepted

/-- The end of a DECODE that ran the engine: the caller's buffer is written, accepted or not (R48,
R57, R141), and the ports show the response and the engine call. -/
def State.deliver (c : EngineCall) (s : State) : State :=
  { s with
    pcmBuf := some c.ans.pcm
    ports := { Ports.quiet with
      rsp := some { status := .ok, data := some (decodeData c.ans) }
      eng := some c } }

/-- A stand-alone engine call shown on the engine port; no register is written (R20, R125). -/
def State.showEngine (c : EngineCall) (s : State) : State :=
  { s with ports := { Ports.quiet with eng := some c } }

/-! ## The two combinational units on their test ports -/

/-- `unp_grp` driven by UNPACK (R92). -/
def State.showGroups (g : Groups) (s : State) : State :=
  { s with ports := { Ports.quiet with unp := some g } }

/-- `dec_total` and `dec_accepted` driven by DECIDE (R108). -/
def State.showVerdict (v : Verdict) (s : State) : State :=
  { s with ports := { Ports.quiet with dec := some v } }

/-! ## Power-on reset, idling, and the caller's next word -/

/-- `rst_n` asserted: `(UNINIT, none)`, idle, outputs `none`, no response (R210, R211). The caller's
buffer and the words it has yet to present are not the block's. Log entry 10. -/
def State.powerOnReset (s : State) : State :=
  { s with life := .uninit, st := none, diag := none, ports := Ports.quiet }

/-- A step in which the caller presents nothing: the block is idle and holds `life` and `st`; the last
response is no longer on the ports (R73, R198, R221). -/
def State.idle (s : State) : State :=
  { s with ports := Ports.quiet }

/-- The next thing the caller presents, and the state once it is taken; it is sampled once (R48, R73,
R220). -/
def State.takeInput (s : State) : Option (Input × State) :=
  match s.inputs with
  | [] => none
  | i :: rest => some (i, { s with inputs := rest })

/-- The caller presents `w` before everything else it has to present. -/
def State.present (w : PortWord) (s : State) : State :=
  { s with inputs := .word w :: s.inputs }

end Sys2Proof.Machine
end

