-- ==== Sys2Proof/Machine/Commands.lean ====
section
/-! DEFINITION. The four Decoder commands (R131 to R134). Each is one atomic transition with one
response (R19); its checks are made in the order R187 gives: arguments first, then lifecycle. -/

namespace Sys2Proof.Machine

/-- CREATE (R131): `ALLOC_FAIL` when the instance's one decoder is taken (R182), else a fresh one. -/
def execCreate (s : State) : StepResult :=
  if s.life ≠ .uninit then raise .allocFail s
  else .next ((s.initDecoder Config.params).respondStatus .ok)

/-- RESET (R132): back to `STATE_DEFAULT` and READY; `INVALID_ARG` without a handle (D11),
`LIFECYCLE` without a live decoder (D10). The caller's PCM is untouched. -/
def execReset (h : Bool) (s : State) : StepResult :=
  if h = false then raise .invalidArg s
  else if s.life = .uninit then raise .lifecycle s
  else .next ((s.initDecoder Config.params).respondStatus .ok)

/-- DECODE once its checks have passed: UNPACK, the engine, `st <- st'`, `life <- ACTIVE`, DECIDE, and
the response, muted or not (R133, R140, R184). -/
def decodeFrame (frame : AmbeFrame) (st : DecoderState) (s : State) : State :=
  let c := callEngine Config.params (unpack frame) st
  ((s.dropDiag).storeDecoder c.ans.st).deliver c

/-- DECODE (R133): `INVALID_ARG` when a reference is missing, `LIFECYCLE` without a live decoder. A
live decoder whose `st` holds no value (no run reaches it) is a fault (R23, U8). -/
def execDecode (h f o : Bool) (frame : AmbeFrame) (s : State) : StepResult :=
  if decodeArgsPresent h f o = false then raise .invalidArg s
  else if s.life = .uninit then raise .lifecycle s
  else
    match s.st with
    | none => .fault .stHasNoValue
    | some st => .next (decodeFrame frame st s)

/-- DESTROY (R134): a no-op that ends `OK` without a handle, `LIFECYCLE` without a live decoder, else
the decoder is released. -/
def execDestroy (h : Bool) (s : State) : StepResult :=
  if h = false then .next (s.respondStatus .ok)
  else if s.life = .uninit then raise .lifecycle s
  else .next (s.releaseDecoder.respondStatus .ok)

end Sys2Proof.Machine
end

