-- ==== Sys2Proof/Machine/Units.lean ====
section
/-! DEFINITION. The two combinational units on their test ports (R92, R108) and the engine call on the
engine port (R115, R125). None of the three writes a register (R20, R85, R100). -/

namespace Sys2Proof.Machine

/-- UNPACK (R85): total, pure, no failure, no register (R87, R88). -/
def execUnpack (frame : AmbeFrame) (s : State) : StepResult :=
  .next (s.showGroups (unpack frame))

/-- DECIDE (R100): total on every pair of counts, pure, no register (R106). -/
def execDecide (e1 e2 : Nat) (s : State) : StepResult :=
  .next (s.showVerdict (verdict e1 e2))

/-- SYNTH (R115): one call of the engine on the given groups and triple, at `Q_HIGH`. The registers
keep their values: storing `st'` is DECODE's act (R20, R118, R122). Log entry 6. -/
def execSynth (g : Groups) (st : DecoderState) (s : State) : StepResult :=
  .next ((s.dropDiag).showEngine (callEngine Config.params g st))

end Sys2Proof.Machine
end

