-- ==== Sys2Proof/Machine/Dispatch.lean ====
section
/-! DEFINITION. The meaning of every instruction of the opcode table, one arm each. -/

namespace Sys2Proof.Machine

def exec (i : Instr) (s : State) : Host.Outcome State Fault Refusal :=
  match i with
  | .create => Sys2Proof.Machine.execCreate s
  | .reset h => Sys2Proof.Machine.execReset h s
  | .decode h f o frame => Sys2Proof.Machine.execDecode h f o frame s
  | .destroy h => Sys2Proof.Machine.execDestroy h s
  | .unpack frame => Sys2Proof.Machine.execUnpack frame s
  | .decideErrs e1 e2 => Sys2Proof.Machine.execDecide e1 e2 s
  | .synth g st => Sys2Proof.Machine.execSynth g st s

end Sys2Proof.Machine
end

