-- ==== Sys2Proof/Machine/Step.lean ====
section
/-! DEFINITION. One step: the block takes what the caller presents next and runs it to completion, or
idles where the caller presents nothing (R19, R50, R73). -/

namespace Sys2Proof.Machine

/-- A word on a port: the instruction it stands for is run; a word that stands for none is refused. -/
def runWord (w : PortWord) (s : State) : StepResult :=
  match decode w with
  | .ok i => exec i s
  | .error r => .refused (.illegalWord r)

/-- One step of the instance. -/
def step (s : State) : Host.Outcome State Fault Refusal :=
  match s.takeInput with
  | none => .next s.idle
  | some (.powerOn, t) => .next t.powerOnReset
  | some (.word w, t) => runWord w t

/-- `s` with the table's word presented next by the caller. There is no program and no fetch (R27):
the command port is where a step takes its instruction from. Log entry 8. -/
def State.withFetchWord (s : State) (nbits w : Nat) : State :=
  match tablePortWord nbits w with
  | some pw => s.present pw
  | none => s

end Sys2Proof.Machine
end

