-- ==== Sys2Proof/Machine/Block.lean ====
section
/-! DEFINITION. The block as one function, R136, for any parameters: commands as the caller writes them
(R16, R67), the pair `(life, st)` with "no value" built into its type (R23), the step function and its
fold over a command sequence. The machine's meanings are the model; this is the spec's own summary of
them, and what the reference host (R161) and a system of several instances (R33, R52) are written
over, so that the stub engines of `95_test_vectors.md` can be put in. -/

namespace Sys2Proof.Machine

/-- A command of the block (R16, R67). -/
inductive Command where
  /-- CREATE. -/
  | create
  /-- RESET. -/
  | reset (h : Bool)
  /-- DECODE; with `f = 0` the frame is ignored, whatever it is. -/
  | decode (h f o : Bool) (frame : AmbeFrame)
  /-- DESTROY. -/
  | destroy (h : Bool)
deriving DecidableEq, Repr

/-- The command as an instruction of the opcode table. -/
def Command.toInstr : Command → Instr
  | .create => .create
  | .reset h => .reset h
  | .decode h f o frame => .decode h f o frame
  | .destroy h => .destroy h

variable {PS Q : Type}

/-- The pair `(life, st)` of R136 over any type of parameter sets: `st` exists exactly when `life` is not
UNINIT (R8, R23). -/
inductive BlockState (PS : Type) where
  /-- `(UNINIT, none)`. -/
  | uninit
  /-- `(READY, st)`. -/
  | ready (st : Triple PS)
  /-- `(ACTIVE, st)`. -/
  | active (st : Triple PS)
deriving DecidableEq, Repr

/-- `life` of the pair. -/
def BlockState.life : BlockState PS → Life
  | .uninit => .uninit
  | .ready _ => .ready
  | .active _ => .active

/-- `st` of the pair, where it holds a value. -/
def BlockState.st : BlockState PS → Option (Triple PS)
  | .uninit => none
  | .ready st => some st
  | .active st => some st

/-- The pair that a machine state's registers hold; none for the register contents that are no state of
R136 (a value in UNINIT, or no value in a live decoder). -/
def State.block (s : State) : Option (BlockState ParamSet) :=
  match s.life, s.st with
  | .uninit, none => some .uninit
  | .ready, some st => some (.ready st)
  | .active, some st => some (.active st)
  | _, _ => none

/-- The DECODE case of R136 once its checks have passed. -/
def blockDecode (P : Params PS Q) (frame : AmbeFrame) (st : Triple PS) :
    BlockState PS × Response :=
  let r := P.engine (unpack frame) st P.qHigh
  let v := verdict r.e1 r.e2
  (.active r.st, ⟨.ok, some ⟨r.pcm, v.total, v.accepted⟩⟩)

/-- `step((life, st), cmd)` of R136. -/
def blockStep (P : Params PS Q) (b : BlockState PS) : Command → BlockState PS × Response
  | .create =>
    match b with
    | .uninit => (.ready P.stateDefault, ⟨.ok, none⟩)
    | _ => (b, ⟨.allocFail, none⟩)
  | .reset h =>
    if h = false then (b, ⟨.invalidArg, none⟩)
    else
      match b with
      | .uninit => (b, ⟨.lifecycle, none⟩)
      | _ => (.ready P.stateDefault, ⟨.ok, none⟩)
  | .decode h f o frame =>
    if h = false ∨ f = false ∨ o = false then (b, ⟨.invalidArg, none⟩)
    else
      match b with
      | .uninit => (b, ⟨.lifecycle, none⟩)
      | .ready st => blockDecode P frame st
      | .active st => blockDecode P frame st
  | .destroy h =>
    if h = false then (b, ⟨.ok, none⟩)
    else
      match b with
      | .uninit => (b, ⟨.lifecycle, none⟩)
      | _ => (.uninit, ⟨.ok, none⟩)

/-- A run: the fold of the step over the caller's commands, with the responses in order (R136). -/
def blockRun (P : Params PS Q) (b : BlockState PS) :
    List Command → BlockState PS × List Response
  | [] => (b, [])
  | c :: cs =>
    let r := blockStep P b c
    let t := blockRun P r.1 cs
    (t.1, r.2 :: t.2)

end Sys2Proof.Machine
end

