-- ==== Sys2Proof/Machine/HostStream.lean ====
section
/-! DEFINITION. The reference host (R160 to R174): one particular caller, OUTSIDE the block. It splits
an `.ambe` file into records, issues CREATE, one DECODE per complete record and DESTROY, keeps three
counters, and writes the PCM of accepted frames. Files and failures of the outside world are its
arguments. Log entry 11. -/

namespace Sys2Proof.Machine

/-! ## Files -/

/-- The complete 9-byte records of an `.ambe` file, in order; a trailing partial record is none
(R160, R162). -/
def hostRecords : List Byte → List AmbeFrame
  | b0 :: b1 :: b2 :: b3 :: b4 :: b5 :: b6 :: b7 :: b8 :: rest =>
    #v[b0, b1, b2, b3, b4, b5, b6, b7, b8] :: hostRecords rest
  | _ => []

/-- Whether a trailing partial record is left over (R160, R162). -/
def hostHasPartial (file : List Byte) : Bool := file.length % frameBytes ≠ 0

/-- A PcmFrame in the `.raw` file: sample 0 first, each low byte first, two's complement (R166, D18). -/
def serialise (pcm : PcmFrame) : List Byte :=
  pcm.toList.flatMap fun x => [x.extractLsb' 0 8, x.extractLsb' 8 8]

/-! ## The stream loop -/

/-- The host's counters and output so far (R163, R164). The spec gives the counters no width (R163,
N13); that each is an unbounded natural, which never wraps, is the model's. DESIGN CHOICE, log
entry 17. -/
structure HostTally where
  /-- Frames decoded. -/
  frames : Nat
  /-- Frames muted. -/
  muted : Nat
  /-- Sum of the totals of all decoded frames, muted ones included. -/
  errors : Nat
  /-- The bytes written to the output. -/
  out : List Byte
deriving DecidableEq, Repr

/-- The host's counters at the start (R161). -/
def HostTally.start : HostTally where
  frames := 0
  muted := 0
  errors := 0
  out := []

/-- What the host does with one decoded frame whose output can be written (R161, R163, R164). -/
def HostTally.addFrame (d : DecodeData) (t : HostTally) : HostTally :=
  { frames := t.frames + 1
    muted := if d.accepted then t.muted else t.muted + 1
    errors := t.errors + d.total
    out := if d.accepted then t.out ++ serialise d.pcm else t.out }

/-- Why an invocation is given up, with exit code 1 (R167, R168). -/
inductive HostFailure where
  /-- The input cannot be read (R168). -/
  | inputUnreadable
  /-- The output path cannot be written (R168). -/
  | outputUnwritable
  /-- A write of PCM data fell short (R168). -/
  | shortWrite
  /-- The block answered a command with a failure status; CREATE's allocation failure is the one that
  can occur (R161, R167, R182). -/
  | commandFailed (status : Status)
deriving DecidableEq, Repr

variable {PS Q : Type}

/-- How a stream ended. -/
structure HostStream (PS : Type) where
  /-- Counters and output. -/
  tally : HostTally
  /-- The block's registers after the last command. -/
  block : BlockState PS
  /-- The commands issued, in order. -/
  commands : List Command
  /-- Why the loop was given up, if it was (R167, R168). -/
  failure : Option HostFailure
deriving DecidableEq, Repr

/-- The loop over the records (R161). `writes` is how many frames can still be written before a write
falls short; `none` means none will (R168). A response without data cannot occur after CREATE; the
loop gives up there. -/
def hostLoop (P : Params PS Q) (b : BlockState PS) (t : HostTally) (writes : Option Nat) :
    List AmbeFrame → HostStream PS
  | [] => { tally := t, block := b, commands := [], failure := none }
  | frame :: rest =>
    let cmd := Command.decode true true true frame
    let r := blockStep P b cmd
    match r.2.data with
    | none =>
      { tally := t, block := r.1, commands := [cmd], failure := some (.commandFailed r.2.status) }
    | some d =>
      if d.accepted = true ∧ writes = some 0 then
        { tally := { t with frames := t.frames + 1, errors := t.errors + d.total }
          block := r.1, commands := [cmd], failure := some .shortWrite }
      else
        let s := hostLoop P r.1 (t.addFrame d)
          (if d.accepted then writes.map (· - 1) else writes) rest
        { s with commands := cmd :: s.commands }

/-- How many of a file's frames a fresh block accepts, by its responses to CREATE and a DECODE for each
record (R163, R164). -/
def acceptedFrames (P : Params PS Q) (file : List Byte) : Nat :=
  let commands := .create :: (hostRecords file).map (Command.decode true true true)
  ((blockRun P .uninit commands).2.filterMap (·.data)).countP (·.accepted)

/-! ## The command line -/

/-- An invocation of the host, with what the outside world does to it. -/
inductive Invocation where
  /-- `decode <in> <out>`: the input's bytes if it can be read, whether the output can be opened, and
  how many frames can be written to it. -/
  | decode (input : Option (List Byte)) (outOpens : Bool) (writes : Option Nat)
  /-- `info`. -/
  | info
  /-- Anything else. -/
  | other
deriving DecidableEq, Repr

/-- What `info` prints: the constants of R7 and the version (R172); its text is open (N8). -/
structure HostInfo where
  /-- `FRAME_BYTES`. -/
  frameBytes : Nat
  /-- `FRAME_BITS`. -/
  frameBits : Nat
  /-- `N_GROUPS`. -/
  nGroups : Nat
  /-- `GROUP_BITS`. -/
  groupBits : Nat
  /-- `N_DATA_GROUPS`. -/
  nDataGroups : Nat
  /-- `PCM_SAMPLES`. -/
  pcmSamples : Nat
  /-- `SAMPLE_BITS`. -/
  sampleBits : Nat
  /-- `SAMPLE_RATE_HZ`. -/
  sampleRateHz : Nat
  /-- `FRAME_MS`. -/
  frameMs : Nat
  /-- `MUTE_THRESHOLD`. -/
  muteThreshold : Nat
  /-- `VERSION`. -/
  version : String
deriving DecidableEq, Repr

/-- The metadata of `info` (R7, R9, R172). -/
def hostInfo : HostInfo where
  frameBytes := Sys2Proof.frameBytes
  frameBits := Sys2Proof.frameBits
  nGroups := Sys2Proof.nGroups
  groupBits := Sys2Proof.groupBits
  nDataGroups := Sys2Proof.nDataGroups
  pcmSamples := Sys2Proof.pcmSamples
  sampleBits := Sys2Proof.sampleBits
  sampleRateHz := Config.sampleRateHz
  frameMs := Config.frameMs
  muteThreshold := Config.muteThreshold
  version := Config.version

/-- What an invocation leaves behind. -/
structure HostOutcome (PS : Type) where
  /-- The process exit code (R167, R172, R173). -/
  exitCode : Nat
  /-- Why the invocation was given up, which the host reports (R168); none where it was not. -/
  failure : Option HostFailure
  /-- The counters and output of a stream that got so far. -/
  tally : HostTally
  /-- Whether the counters are reported: at the end of a stream that was not given up (R161). -/
  reportsCounters : Bool
  /-- The warning for a trailing partial frame (R162). -/
  warning : Bool
  /-- The commands issued to the block, in order. -/
  commands : List Command
  /-- The block's registers afterwards. -/
  block : BlockState PS
  /-- The metadata, where `info` was asked for. -/
  info : Option HostInfo
  /-- Whether the usage text is printed (R173). -/
  usage : Bool
deriving DecidableEq, Repr

/-- An outcome in which nothing was issued to the block. -/
def HostOutcome.untouched (exitCode : Nat) (failure : Option HostFailure) (b : BlockState PS) :
    HostOutcome PS where
  exitCode := exitCode
  failure := failure
  tally := .start
  reportsCounters := false
  warning := false
  commands := []
  block := b
  info := none
  usage := false

/-- `decode <in> <out>` with both files open (R161): CREATE, the loop, the warning, DESTROY, the report
of the counters, and the exit code of R167. -/
def hostDecode (P : Params PS Q) (b : BlockState PS) (file : List Byte) (writes : Option Nat) :
    HostOutcome PS :=
  let c := blockStep P b .create
  if c.2.status ≠ .ok then
    { HostOutcome.untouched 1 (some (.commandFailed c.2.status)) c.1 with commands := [.create] }
  else
    let s := hostLoop P c.1 .start writes (hostRecords file)
    match s.failure with
    | some why =>
      { HostOutcome.untouched 1 (some why) s.block with
        tally := s.tally
        commands := .create :: s.commands }
    | none =>
      { HostOutcome.untouched 0 none (blockStep P s.block (.destroy true)).1 with
        tally := s.tally
        reportsCounters := true
        warning := hostHasPartial file
        commands := .create :: s.commands ++ [.destroy true] }

/-- The host's command line (R161, R167, R168, R172, R173). Where the input cannot be read and the output
cannot be written at once, the spec does not say which is reported (R168, R185); that the input is
tried first, and its failure alone reported, is the model's. DESIGN CHOICE, log entry 11. -/
def hostMain (P : Params PS Q) (b : BlockState PS) : Invocation → HostOutcome PS
  | .decode (some file) true writes => hostDecode P b file writes
  | .decode (some _) false _ => HostOutcome.untouched 1 (some .outputUnwritable) b
  | .decode none _ _ => HostOutcome.untouched 1 (some .inputUnreadable) b
  | .info => { HostOutcome.untouched 0 none b with info := some hostInfo }
  | .other => { HostOutcome.untouched 1 none b with usage := true }

end Sys2Proof.Machine
end

