-- ==== Sys2Proof/Machine/Instances.lean ====
section
/-! DEFINITION. A system of any number of independent instances (R33, R52, R196; `N_INSTANCES`, D26):
each has its own registers and port, and a command goes to one of them. -/

namespace Sys2Proof.Machine

variable {PS Q : Type}

/-- The instances' registers; the length is `N_INSTANCES`. -/
abbrev BlockSystem (PS : Type) := List (BlockState PS)

/-- The system after power-on reset: each instance starts in UNINIT (R196, R210). -/
def systemReset (PS : Type) (nInstances : Nat) : BlockSystem PS := List.replicate nInstances .uninit

/-- One command to instance `i`; a number that is no instance's changes nothing. -/
def systemStep (P : Params PS Q) (sys : BlockSystem PS) (i : Nat) (c : Command) :
    BlockSystem PS × List (Nat × Response) :=
  match sys[i]? with
  | none => (sys, [])
  | some b =>
    let r := blockStep P b c
    (sys.set i r.1, [(i, r.2)])

/-- Commands to the instances in the order they happen, with the responses tagged by instance. -/
def systemRun (P : Params PS Q) (sys : BlockSystem PS) :
    List (Nat × Command) → BlockSystem PS × List (Nat × Response)
  | [] => (sys, [])
  | (i, c) :: rest =>
    let r := systemStep P sys i c
    let t := systemRun P r.1 rest
    (t.1, r.2 ++ t.2)

/-- The entries of a tagged list that belong to instance `i`, in order. -/
def forInstance {α : Type} (i : Nat) (l : List (Nat × α)) : List α :=
  l.filterMap fun e => if e.1 = i then some e.2 else none

end Sys2Proof.Machine
end

