-- ==== Sys2Proof/Safety.lean ====
section
/-! DEFINITION. What claims about the block are stated with: the invariant of its registers (R23, R24),
a run on which no command ended `LIFECYCLE` (R183), and the caller's duties (R175, R212 to R217). -/

namespace Sys2Proof.Safety

open Sys2Proof.Machine

/-- The registers are as the spec says a block's registers always are: `st` holds no value in UNINIT
(R23), `STATE_DEFAULT` in READY (R24), some value in ACTIVE (R21), and the diagnostic buffer holds no
value between commands (R31, R32). -/
def Inv (s : State) : Prop :=
  s.diag = none ∧
  match s.life with
  | .uninit => s.st = none
  | .ready => s.st = some Config.stateDefault
  | .active => s.st.isSome = true

/-- No command up to here has ended `LIFECYCLE`: R183 asks a claim about a command sequence to have this
as a premise or to prove it. -/
def Clean (s : State) : Prop := s.lifecycleFault = false

/-- The status of the response on the ports, if there is one. -/
def lastStatus (s : State) : Option Status := s.ports.rsp.map (·.status)

/-- A live decoder: `life` is READY or ACTIVE (R131). -/
def live (s : State) : Bool := s.life ≠ .uninit

/-- The caller's duties on a command sequence, where `isLive` says whether a decoder is live before it:
CREATE only without one; RESET, DECODE and DESTROY with the handle only with one; every reference
DECODE takes present; DESTROY without a handle at any time (R68, R175, R212, R217, R219). -/
def obeysContract (isLive : Bool) : List Command → Bool
  | [] => true
  | .create :: cs => !isLive && obeysContract true cs
  | .reset h :: cs => h && isLive && obeysContract true cs
  | .decode h f o _ :: cs => h && f && o && isLive && obeysContract true cs
  | .destroy true :: cs => isLive && obeysContract false cs
  | .destroy false :: cs => obeysContract isLive cs

/-- A command as the caller presents it on the command port. -/
def presented (c : Command) : Input := .word (encode c.toInstr)

/-- The machine stops within `k` steps from `s`, with a fault or a refusal. -/
def stopsWithin (k : Nat) (s : State) : Prop :=
  ∀ t, Sys2Proof.core.run k s ≠ .next t

end Sys2Proof.Safety
end

