-- ==== Sys2Proof/Certificates/Slice0/Obligations.lean ====
section
/-! DEFINITION. What is to be proved of the block. Each docstring names the rule of `spec/` it
formalises, or the log entry where it rests on a choice of the model. -/

open Sys2Proof Sys2Proof.Machine Sys2Proof.Safety

/-! ## Words, buses and decoding -/

/-- At every `ERR_W`, each well-formed instruction is read back from its word, with every operand at
every value the word can carry (R67, R68, R65, R66, and the table's rows UNPACK, DECIDE, SYNTH). -/
def Obligations.DecodeOfEncodeIsTheInstruction : Prop :=
  ∀ (errW : Nat) (i : Instr), WellFormed i errW → decodeAt (encode i errW) = .ok i

/-- At every `ERR_W`, a word the decoder reads stands for a well-formed instruction: the counts fit
`ERR_W` bits, group 3 is zero, and a frame that DECODE ignores is canonical. The widths of the counts
are R16's. Two clauses are the model's choice: that the operand of an ignored frame is the canonical
one, log entry 19 (R68 says that the field is ignored and is encoded 0), and that an engine word whose
group 3 is not zero is not read, log entry 7 (R86 says that UNPACK drives it to zero). -/
def Obligations.DecodedInstructionIsWellFormed : Prop :=
  ∀ (errW : Nat) (w : PortWordOf errW) (i : Instr), decodeAt w = .ok i → WellFormed i errW

/-- A command word written out again keeps every bit its command takes and has 0 in the fields the
command ignores, the canonical encoding of R68: CREATE takes none but `op`, RESET and DESTROY take
`h`, DECODE takes every field, but for `frame` when `f = 0`. -/
def Obligations.CommandWordReencodesCanonically : Prop :=
  ∀ (w : BitVec 77) (i : Instr), decode (.cmd w) = .ok i →
    encode i = .cmd (w &&&
      (if w.extractLsb' 75 2 = 0b00#2 then 0x18000000000000000000#77
       else if w.extractLsb' 75 2 = 0b10#2 then
         if w.getLsbD 73 then 0x1FFFFFFFFFFFFFFFFFFF#77 else 0x1F000000000000000000#77
       else 0x1C000000000000000000#77))

/-- R69, the opcode map by match and mask over the 77-bit word, with the fields of R67: four commands,
and neither UNPACK nor DECIDE among them, whose words are of the formats `AMBE72` and `ERRPAIR`. The
frame of a DECODE is that of its bus when `f = 1`; when `f = 0` the field is ignored. -/
def Obligations.OpcodeMapByMatchAndMask : Prop :=
  ∀ w : BitVec 77,
    (w &&& 0x18000000000000000000#77 = 0x00000000000000000000#77 →
      decode (.cmd w) = .ok .create) ∧
    (w &&& 0x18000000000000000000#77 = 0x08000000000000000000#77 →
      decode (.cmd w) = .ok (.reset (w.getLsbD 74))) ∧
    (w &&& 0x18000000000000000000#77 = 0x10000000000000000000#77 →
      ∃ frame, decode (.cmd w) =
          .ok (.decode (w.getLsbD 74) (w.getLsbD 73) (w.getLsbD 72) frame) ∧
        (w.getLsbD 73 = true → frame = frameOfBus (w.extractLsb' 0 72))) ∧
    (w &&& 0x18000000000000000000#77 = 0x18000000000000000000#77 →
      decode (.cmd w) = .ok (.destroy (w.getLsbD 74))) ∧
    (∀ i : Instr, decode (.cmd w) = .ok i → i.format = .cmd77) ∧
    (∀ frame, (encode (.unpack frame)).format = .ambe72) ∧
    (∀ e1 e2, (encode (.decideErrs e1 e2)).format = .errPair)

/-- Words of `95_test_vectors.md` section 2.4, written out from R67, decode to the commands beside
them; and one word for each of the three other ports. -/
def Obligations.WordsOfTheSpecDecode : Prop :=
  decode (.cmd 0x00000000000000000000#77) = .ok .create ∧
  decode (.cmd 0x0C000000000000000000#77) = .ok (.reset true) ∧
  decode (.cmd 0x170123456789ABCDEF5A#77) =
    .ok (.decode true true true #v[0x01, 0x23, 0x45, 0x67, 0x89, 0xAB, 0xCD, 0xEF, 0x5A]) ∧
  decode (.cmd 0x18000000000000000000#77) = .ok (.destroy false) ∧
  decode (.unp 0x010000000000000000#72) = .ok (.unpack #v[1, 0, 0, 0, 0, 0, 0, 0, 0]) ∧
  decode (.dec 0x0504#16) = .ok (.decideErrs 5 4) ∧
  (∀ st, decode (.eng 0x000000000000000000000000#96 st) =
    .ok (.synth (Vector.replicate 4 (Vector.replicate 24 false)) st))

/-- R65: the bus `F` has `e(k)` on wire `71 − k`, is the nine bytes in order, and byte `b` is its slice
`71 − 8b : 64 − 8b`; taking the bytes off the bus undoes putting them on it. -/
def Obligations.FrameBusCarriesTheBytesInOrder : Prop :=
  (∀ (frame : AmbeFrame) (b : Fin 9) (i : Fin 8),
    (frameBus frame).getLsbD (71 - (8 * b.val + (7 - i.val))) = frame[b].getLsbD i.val) ∧
  (∀ frame : AmbeFrame,
    frameBus frame = frame[0] ++ frame[1] ++ frame[2] ++ frame[3] ++ frame[4] ++ frame[5] ++
      frame[6] ++ frame[7] ++ frame[8]) ∧
  (∀ (frame : AmbeFrame) (b : Fin 9),
    (frameBus frame).extractLsb' (64 - 8 * b.val) 8 = frame[b]) ∧
  (∀ frame : AmbeFrame, frameOfBus (frameBus frame) = frame) ∧
  (∀ F : BitVec 72, frameBus (frameOfBus F) = F)

/-- The model's choice (log entries 6 and 7): a word on the engine port stands for a call exactly when
its group 3 is zero, and a step refuses any other. It rests on "group 3 is reserved and always
zero" and on the mask of the table's row SYNTH. -/
def Obligations.EngineWordWithGroup3IsRefused : Prop :=
  (∀ (w : BitVec 96) (st : DecoderState),
    (∃ i, decode (.eng w st) = .ok i) ↔ w.extractLsb' 0 24 = 0) ∧
  (∀ (s : State) (w : BitVec 96) (st : DecoderState) (rest : List Input),
    s.inputs = .word (.eng w st) :: rest → w.extractLsb' 0 24 ≠ 0 →
    step s = .refused (.illegalWord .group3NotZero))

/-! ## UNPACK -/

/-- R62 with the bit order of R45: groups 0, 1, 2 hold `e(p)`, `e(24 + p)`, `e(48 + p)` and group 3
holds 0; `e` takes byte 0 first and bit 7 of a byte first. -/
def Obligations.UnpackFollowsTheExtractionOrder : Prop :=
  (∀ (frame : AmbeFrame) (p : Fin 24),
    (unpack frame)[0][p] = extract frame p.val ∧
    (unpack frame)[1][p] = extract frame (24 + p.val) ∧
    (unpack frame)[2][p] = extract frame (48 + p.val) ∧
    (unpack frame)[3][p] = false) ∧
  (∀ (frame : AmbeFrame) (b : Fin 9) (i : Fin 8),
    extract frame (8 * b.val + (7 - i.val)) = frame[b].getLsbD i.val)

/-- R85's pseudocode, run over cells that hold anything, gives the layout `unpack` wires; R86: the zero
of group 3 does not depend on any earlier use of the cells. -/
def Obligations.UnpackLoopIsTheWiring : Prop :=
  ∀ (frame : AmbeFrame) (before : Groups),
    unpackLoop frame before = unpack frame ∧
    ∀ p : Fin 24, (unpackLoop frame before)[3][p] = false

/-- The consequences R89 derives: the frame is recovered from its layout by the inverse map, every
layout with a zero group 3 is some frame's, and two frames with one layout are one. -/
def Obligations.UnpackIsABijection : Prop :=
  (∀ frame : AmbeFrame, repack (unpack frame) = frame) ∧
  (∀ g : Groups, group3Zero g = true → unpack (repack g) = g) ∧
  (∀ f f' : AmbeFrame, unpack f = unpack f' → f = f') ∧
  (∀ (g : Groups) (b : Fin 9) (i : Fin 8),
    (repack g)[b].getLsbD i.val = cell g (b.val / 3) (8 * (b.val % 3) + (7 - i.val)))

/-- A consequence R89 derives: the layout has as many ones as the frame. -/
def Obligations.UnpackKeepsTheNumberOfOnes : Prop :=
  ∀ frame : AmbeFrame, onesInGroups (unpack frame) = onesInFrame frame

/-- The word view R90 derives under the numbering of D7: `W(j)` is the three bytes of the group, and
`W(3) = 0`. -/
def Obligations.GroupWordIsThreeBytes : Prop :=
  ∀ frame : AmbeFrame,
    (groupWord (unpack frame) 0).toNat =
      frame[0].toNat * 65536 + frame[1].toNat * 256 + frame[2].toNat ∧
    (groupWord (unpack frame) 1).toNat =
      frame[3].toNat * 65536 + frame[4].toNat * 256 + frame[5].toNat ∧
    (groupWord (unpack frame) 2).toNat =
      frame[6].toNat * 65536 + frame[7].toNat * 256 + frame[8].toNat ∧
    groupWord (unpack frame) 3 = 0

/-- The bus `G` of R66, `G[95 − 24j − p] = g[j][p]`, and what R66 and R92 derive: for UNPACK's output it
is the 72 frame wires followed by 24 zero wires. -/
def Obligations.GroupBusIsTheFrameThenZeros : Prop :=
  (∀ (g : Groups) (j : Fin 4) (p : Fin 24),
    (groupsBus g).getLsbD (95 - 24 * j.val - p.val) = g[j][p]) ∧
  (∀ frame : AmbeFrame, groupsBus (unpack frame) = frameBus frame ++ 0#24) ∧
  (∀ g : Groups, groupsOfBus (groupsBus g) = g) ∧
  (∀ G : BitVec 96, groupsBus (groupsOfBus G) = G)

/-! ## DECIDE -/

/-- R102: `accepted = 1` exactly when the sum is at most 7, so 7 is accepted and 8 is rejected; the
total is the sum. -/
def Obligations.VerdictAcceptsUpToSeven : Prop :=
  ∀ e1 e2 : Nat,
    (verdict e1 e2).total = e1 + e2 ∧
    ((verdict e1 e2).accepted = true ↔ e1 + e2 ≤ 7) ∧
    (e1 + e2 = 7 → (verdict e1 e2).accepted = true) ∧
    (e1 + e2 = 8 → (verdict e1 e2).accepted = false)

/-- The adder of R101 on wires of any width never wraps, its output is at most `2^(w+1) − 2`, and the
gate R108 derives, NOT of the OR of the bits above bit 2, is the comparator. -/
def Obligations.AdderNeverWrapsAndGateCompares : Prop :=
  ∀ (w : Nat) (e1 e2 : BitVec w),
    (adderBits e1 e2).toNat = e1.toNat + e2.toNat ∧
    (adderBits e1 e2).toNat ≤ 2 ^ (w + 1) - 2 ∧
    acceptGate (adderBits e1 e2) = (verdict e1.toNat e2.toNat).accepted ∧
    (w < 3 → acceptGate (adderBits e1 e2) = true)

/-- The count R107 (d) derives: exactly 36 pairs are accepted. -/
def Obligations.ThirtySixPairsAreAccepted : Prop :=
  ∃ S : Finset (Nat × Nat), S.card = 36 ∧
    ∀ e : Nat × Nat, e ∈ S ↔ (verdict e.1 e.2).accepted = true

/-- The properties R107 (a), (b), (c), (e) derives: symmetric, antitone, each count at most 7 when
accepted, and the total no less than either. -/
def Obligations.VerdictIsSymmetricAndAntitone : Prop :=
  (∀ e1 e2 : Nat, verdict e1 e2 = verdict e2 e1) ∧
  (∀ e1 e2 e1' e2' : Nat, e1 ≤ e1' → e2 ≤ e2' → (verdict e1' e2').accepted = true →
    (verdict e1 e2).accepted = true) ∧
  (∀ e1 e2 : Nat, (verdict e1 e2).accepted = true → e1 ≤ 7 ∧ e2 ≤ 7) ∧
  (∀ e1 e2 : Nat, e1 ≤ (verdict e1 e2).total ∧ e2 ≤ (verdict e1 e2).total)

/-! ## The meanings of the instructions -/

/-- UNPACK (R85, R62): every word of the format `AMBE72` is an UNPACK of the frame on its bus; it
completes in every state with the cells of R62, and no register changes. That it runs as a step of its
own, whose output on `unp_grp` takes the place of the last step's outputs, is the model's choice, log
entry 13. -/
def Obligations.UnpackResult : Prop :=
  (∀ F : BitVec 72, decode (.unp F) = .ok (.unpack (frameOfBus F))) ∧
  ∀ (frame : AmbeFrame) (s : State),
    exec (.unpack frame) s =
      .next { s with ports :=
        { rsp := none, eng := none, unp := some (unpack frame), dec := none } } ∧
    ∀ (j : Fin 4) (p : Fin 24),
      (unpack frame)[j][p] = if j.val < 3 then extract frame (24 * j.val + p.val) else false

/-- DECIDE (R100): at every `ERR_W`, each word of the format `ERRPAIR` is a DECIDE of its two unsigned
fields, `e1` the upper one as the opcode table's row draws it; it completes in every state with the
exact sum and the comparison with 7, and no register changes. That it runs as a step of its own, whose
outputs take the place of the last step's, is the model's choice, log entry 13. -/
def Obligations.DecideResult : Prop :=
  (∀ (errW : Nat) (w : BitVec (2 * errW)), decodeAt (.dec w) =
    .ok (.decideErrs (w.extractLsb' errW errW).toNat (w.extractLsb' 0 errW).toNat)) ∧
  ∀ (e1 e2 : Nat) (s : State),
    exec (.decideErrs e1 e2) s =
      .next { s with ports :=
        { rsp := none, eng := none, unp := none
          dec := some { accepted := decide (e1 + e2 ≤ 7), total := e1 + e2 } } }

/-- SYNTH completes in every state: one call of the engine on the given groups and triple at `Q_HIGH`
(R115, R120), shown on the engine port. That a stand-alone call writes no register is the model's
choice, log entry 6. -/
def Obligations.SynthResult : Prop :=
  ∀ (g : Groups) (st : DecoderState) (s : State),
    exec (.synth g st) s =
      .next { s with
        diag := none
        ports :=
          { rsp := none
            eng := some
              { req := { grp := g, st := st, q := Config.qHigh }
                ans :=
                  { pcm := (Config.engine g st Config.qHigh).pcm
                    e1 := (Config.engine g st Config.qHigh).e1
                    e2 := (Config.engine g st Config.qHigh).e2
                    st := (Config.engine g st Config.qHigh).st } }
            unp := none
            dec := none } }

/-- R131, CREATE whole: its words whatever the ignored fields hold, its effect from UNINIT, and
`ALLOC_FAIL` with the live decoder untouched otherwise. -/
def Obligations.CreateResult : Prop :=
  (∀ w : BitVec 77, w.extractLsb' 75 2 = 0b00#2 → decode (.cmd w) = .ok .create) ∧
  (∀ s : State, s.life = .uninit →
    exec .create s = .next { s with
      life := .ready
      st := some Config.stateDefault
      ports := { rsp := some ⟨.ok, none⟩, eng := none, unp := none, dec := none } }) ∧
  (∀ s : State, s.life ≠ .uninit →
    exec .create s = .next { s with
      ports := { rsp := some ⟨.allocFail, none⟩, eng := none, unp := none, dec := none } })

/-- R132, RESET whole: its words, `INVALID_ARG` without a handle, `LIFECYCLE` without a live decoder
(`b` is the model's own record, log entry 1), and its effect on a live one. -/
def Obligations.ResetResult : Prop :=
  (∀ w : BitVec 77, w.extractLsb' 75 2 = 0b01#2 →
    decode (.cmd w) = .ok (.reset (w.getLsbD 74))) ∧
  (∀ s : State,
    exec (.reset false) s = .next { s with
      ports := { rsp := some ⟨.invalidArg, none⟩, eng := none, unp := none, dec := none } }) ∧
  (∀ s : State, s.life = .uninit → ∃ b : Bool,
    exec (.reset true) s = .next { s with
      lifecycleFault := b
      ports := { rsp := some ⟨.lifecycle, none⟩, eng := none, unp := none, dec := none } }) ∧
  (∀ s : State, s.life ≠ .uninit →
    exec (.reset true) s = .next { s with
      life := .ready
      st := some Config.stateDefault
      ports := { rsp := some ⟨.ok, none⟩, eng := none, unp := none, dec := none } })

/-- DECODE (R133): its words, whose field `frame` is the operand when `f = 1`, `INVALID_ARG` when a
reference is missing whatever `life` is, `LIFECYCLE` without a live decoder (`b` as in `ResetResult`),
and on a live one the engine called on the unpacked frame, `st` and `life` written, and the response,
muted or not. That the samples stand in `pcmBuf` too is R48 and R57 on the caller's buffer, which log
entry 9 puts into the state, the model's choice. -/
def Obligations.DecodeResult : Prop :=
  (∀ w : BitVec 77, w.extractLsb' 75 2 = 0b10#2 →
    ∃ frame, decode (.cmd w) =
        .ok (.decode (w.getLsbD 74) (w.getLsbD 73) (w.getLsbD 72) frame) ∧
      (w.getLsbD 73 = true → frame = frameOfBus (w.extractLsb' 0 72))) ∧
  (∀ (h f o : Bool) (frame : AmbeFrame) (s : State), h = false ∨ f = false ∨ o = false →
    exec (.decode h f o frame) s = .next { s with
      ports := { rsp := some ⟨.invalidArg, none⟩, eng := none, unp := none, dec := none } }) ∧
  (∀ (frame : AmbeFrame) (s : State), s.life = .uninit → ∃ b : Bool,
    exec (.decode true true true frame) s = .next { s with
      lifecycleFault := b
      ports := { rsp := some ⟨.lifecycle, none⟩, eng := none, unp := none, dec := none } }) ∧
  (∀ (frame : AmbeFrame) (s : State) (st : DecoderState), s.life ≠ .uninit → s.st = some st →
    let r := Config.engine (unpack frame) st Config.qHigh
    exec (.decode true true true frame) s = .next { s with
      life := .active
      st := some r.st
      diag := none
      pcmBuf := some r.pcm
      ports :=
        { rsp := some
            { status := .ok
              data := some
                { pcm := r.pcm, total := r.e1 + r.e2, accepted := decide (r.e1 + r.e2 ≤ 7) } }
          eng := some
            { req := { grp := unpack frame, st := st, q := Config.qHigh }
              ans := { pcm := r.pcm, e1 := r.e1, e2 := r.e2, st := r.st } }
          unp := none
          dec := none } })

/-- R134, DESTROY whole: its words, the no-op without a handle, `LIFECYCLE` without a live decoder
(`b` as in `ResetResult`), and the release of a live one. -/
def Obligations.DestroyResult : Prop :=
  (∀ w : BitVec 77, w.extractLsb' 75 2 = 0b11#2 →
    decode (.cmd w) = .ok (.destroy (w.getLsbD 74))) ∧
  (∀ s : State,
    exec (.destroy false) s = .next { s with
      ports := { rsp := some ⟨.ok, none⟩, eng := none, unp := none, dec := none } }) ∧
  (∀ s : State, s.life = .uninit → ∃ b : Bool,
    exec (.destroy true) s = .next { s with
      lifecycleFault := b
      ports := { rsp := some ⟨.lifecycle, none⟩, eng := none, unp := none, dec := none } }) ∧
  (∀ s : State, s.life ≠ .uninit →
    exec (.destroy true) s = .next { s with
      life := .uninit
      st := none
      ports := { rsp := some ⟨.ok, none⟩, eng := none, unp := none, dec := none } })

/-- A live decoder whose `st` holds no value, which no run reaches, makes DECODE stop: U8 ("a model
that represents it must make any read a `fault`"). -/
def Obligations.DecodeOfNoStateFaults : Prop :=
  ∀ (frame : AmbeFrame) (s : State), s.life ≠ .uninit → s.st = none →
    exec (.decode true true true frame) s = .fault .stHasNoValue

/-- Log entry 1, the model's own record: a command sets it exactly when it ends `LIFECYCLE`, and no
step clears it. -/
def Obligations.LifecycleRecordIsSticky : Prop :=
  (∀ (c : Command) (s t : State), exec c.toInstr s = .next t →
    t.lifecycleFault = (s.lifecycleFault || decide (lastStatus t = some .lifecycle))) ∧
  (∀ s t : State, step s = .next t → s.lifecycleFault = true → t.lifecycleFault = true)

/-! ## Failures and responses -/

/-- R71, the status codes. -/
def Obligations.StatusCodesOfTheSpec : Prop :=
  statusCode .ok = 0b00#2 ∧ statusCode .invalidArg = 0b01#2 ∧
  statusCode .allocFail = 0b10#2 ∧ statusCode .lifecycle = 0b11#2 ∧
  (∀ c : BitVec 2, ∃ f : Status, statusCode f = c)

/-- The encoding of `life` in R21, and that no value of it has the code `0b11`. -/
def Obligations.LifeCodesOfTheSpec : Prop :=
  lifeCode .uninit = 0b00#2 ∧ lifeCode .ready = 0b01#2 ∧ lifeCode .active = 0b10#2 ∧
  (∀ l : Life, lifeCode l ≠ 0b11#2)

/-- R186: a command that ends with a failure status leaves `life` and `st` as they were, does not call
the engine and produces no data; nor does it touch the diagnostic buffer, the caller's PCM or what
the caller has yet to present. -/
def Obligations.FailureHasNoEffect : Prop :=
  ∀ (c : Command) (s t : State) (r : Response),
    exec c.toInstr s = .next t → t.ports.rsp = some r → r.status ≠ .ok →
    r.data = none ∧ t.ports.eng = none ∧ t.life = s.life ∧ t.st = s.st ∧ t.diag = s.diag ∧
    t.pcmBuf = s.pcmBuf ∧ t.inputs = s.inputs

/-- What R188 derives: after a failure the next command does exactly what it would have done had the
failed one not been issued (the model's own record, log entry 1, apart). -/
def Obligations.NextCommandAsIfFailureNotIssued : Prop :=
  ∀ (c c' : Command) (s t : State) (r : Response),
    exec c.toInstr s = .next t → t.ports.rsp = some r → r.status ≠ .ok →
    exec c'.toInstr { t with lifecycleFault := s.lifecycleFault } = exec c'.toInstr s

/-- Every command that answers gives one response, and its data fields are present exactly for a DECODE
that ends `OK` (the table of R70, its packing apart). -/
def Obligations.DataFieldsOnlyOfAnOkDecode : Prop :=
  ∀ (c : Command) (s t : State), exec c.toInstr s = .next t →
    ∃ r : Response, t.ports.rsp = some r ∧ t.ports.unp = none ∧ t.ports.dec = none ∧
      (r.data.isSome = true ↔
        (∃ h f o frame, c = .decode h f o frame) ∧ r.status = .ok)

/-- The packing of R70 at every `ERR_W`: `{status, accepted, total, pcm_bus}` with
`pcm_bus[16n + 15 : 16n] = pcm[n]`. Every response with no data, and every one whose total fits
`ERR_W + 1` bits, has a packed form, in which the status stands on the top two wires; the total of two
counts of `ERR_W` bits fits; and where there are no data the other wires carry anything at all
(R101, U11). That a wider total, which only an engine of wider counts gives, has no packed form is
log entry 4. -/
def Obligations.ResponsePacking : Prop :=
  (∀ (pcm : PcmFrame) (n : Fin 160), (pcmBus pcm).extractLsb' (16 * n.val) 16 = pcm[n]) ∧
  ∀ (errW : Nat) (undriven : BitVec (1 + (errW + 1) + 2560)) (r : Response),
    (∀ v, responseBus errW undriven r = some v →
      v.extractLsb' (1 + (errW + 1) + 2560) 2 = statusCode r.status) ∧
    (r.data = none → ∃ v, responseBus errW undriven r = some v ∧
      v.extractLsb' 0 (1 + (errW + 1) + 2560) = undriven) ∧
    (∀ d, r.data = some d → d.total < 2 ^ (errW + 1) →
      ∃ v, responseBus errW undriven r = some v ∧
        v.getLsbD (errW + 1 + 2560) = d.accepted ∧
        (v.extractLsb' 2560 (errW + 1)).toNat = d.total ∧
        v.extractLsb' 0 2560 = pcmBus d.pcm) ∧
    (∀ d, r.data = some d → 2 ^ (errW + 1) ≤ d.total → responseBus errW undriven r = none) ∧
    (∀ e1 e2 : Nat, e1 < 2 ^ errW → e2 < 2 ^ errW → (verdict e1 e2).total < 2 ^ (errW + 1))

/-- The response's samples are the engine's unchanged, whether the frame is accepted or not (R141). That
they stand in the caller's buffer too is R48 and R57 on the buffer that log entry 9 puts into the
state, the model's choice. -/
def Obligations.PcmIsPassedThrough : Prop :=
  ∀ (h f o : Bool) (frame : AmbeFrame) (s t : State) (r : Response) (d : DecodeData),
    exec (.decode h f o frame) s = .next t → t.ports.rsp = some r → r.data = some d →
    ∃ st, s.st = some st ∧
      d.pcm = (Config.engine (unpack frame) st Config.qHigh).pcm ∧
      t.pcmBuf = some d.pcm

/-- What a command does to the caller's PCM buffer: only a DECODE that ends `OK` writes it, so RESET is
a no-op with respect to any previously produced PCM (R57, log entry 9). -/
def Obligations.OnlyAnOkDecodeWritesPcm : Prop :=
  ∀ s t : State, step s = .next t → t.pcmBuf ≠ s.pcmBuf →
    ∃ (w : PortWord) (rest : List Input) (frame : AmbeFrame),
      s.inputs = .word w :: rest ∧ decode w = .ok (.decode true true true frame) ∧
      lastStatus t = some .ok

/-- R184, for any engine: a frame whose total is above 7 is no failure; the status is `OK`, `accepted`
is 0, the total and the engine's PCM are reported, and `st` and `life` are written as for an
accepted frame. -/
def Obligations.MutedFrameIsASuccess : Prop :=
  ∀ {PS Q : Type} (P : Params PS Q) (b : BlockState PS) (st : Triple PS) (frame : AmbeFrame),
    b.st = some st →
    7 < (P.engine (unpack frame) st P.qHigh).e1 + (P.engine (unpack frame) st P.qHigh).e2 →
    blockStep P b (.decode true true true frame) =
      (.active (P.engine (unpack frame) st P.qHigh).st,
       { status := .ok
         data := some
          { pcm := (P.engine (unpack frame) st P.qHigh).pcm
            total := (P.engine (unpack frame) st P.qHigh).e1 +
              (P.engine (unpack frame) st P.qHigh).e2
            accepted := false } })

/-- When the engine is called, and on what: by a command exactly when it is a DECODE that passes its
argument and lifecycle checks, on all four groups as UNPACK made them, the triple as the last command
left it, and `Q_HIGH` (R122, R116). -/
def Obligations.EngineCalledOnceByAPassingDecode : Prop :=
  ∀ (c : Command) (s t : State), exec c.toInstr s = .next t →
    (t.ports.eng ≠ none ↔ s.life ≠ .uninit ∧ ∃ frame, c = .decode true true true frame) ∧
    (∀ e : EngineCall, t.ports.eng = some e →
      ∃ frame st, c = .decode true true true frame ∧ s.st = some st ∧
        e.req.grp = unpack frame ∧ e.req.st = st ∧ e.req.q = Config.qHigh ∧
        t.st = some e.ans.st)

/-! ## The state machine -/

/-- R135, the transition table, cell by cell, for any parameters, and `life` after power-on reset. -/
def Obligations.TransitionTable : Prop :=
  ∀ {PS Q : Type} (P : Params PS Q) (st : Triple PS),
    blockStep P .uninit .create = (.ready P.stateDefault, ⟨.ok, none⟩) ∧
    blockStep P (.ready st) .create = (.ready st, ⟨.allocFail, none⟩) ∧
    blockStep P (.active st) .create = (.active st, ⟨.allocFail, none⟩) ∧
    (∀ b, blockStep P b (.reset false) = (b, ⟨.invalidArg, none⟩)) ∧
    blockStep P .uninit (.reset true) = (.uninit, ⟨.lifecycle, none⟩) ∧
    blockStep P (.ready st) (.reset true) = (.ready P.stateDefault, ⟨.ok, none⟩) ∧
    blockStep P (.active st) (.reset true) = (.ready P.stateDefault, ⟨.ok, none⟩) ∧
    (∀ b h f o frame, h = false ∨ f = false ∨ o = false →
      blockStep P b (.decode h f o frame) = (b, ⟨.invalidArg, none⟩)) ∧
    (∀ frame, blockStep P .uninit (.decode true true true frame) =
      (.uninit, ⟨.lifecycle, none⟩)) ∧
    (∀ frame b, b = .ready st ∨ b = .active st →
      ∃ d, blockStep P b (.decode true true true frame) =
        (.active (P.engine (unpack frame) st P.qHigh).st, ⟨.ok, some d⟩)) ∧
    (∀ b, blockStep P b (.destroy false) = (b, ⟨.ok, none⟩)) ∧
    blockStep P .uninit (.destroy true) = (.uninit, ⟨.lifecycle, none⟩) ∧
    blockStep P (.ready st) (.destroy true) = (.uninit, ⟨.ok, none⟩) ∧
    blockStep P (.active st) (.destroy true) = (.uninit, ⟨.ok, none⟩) ∧
    State.reset.life = .uninit

/-- R137: after CREATE the registers are `(READY, STATE_DEFAULT)`, a RESET from there leaves them so
again, and a DECODE that follows does the same with the RESET as without it: it gives one outcome, the
engine being a function, and with every reference present it completes. -/
def Obligations.FreshStart : Prop :=
  ∀ s a b : State, s.life = .uninit →
    exec .create s = .next a → exec (.reset true) a = .next b →
    (a.life = .ready ∧ a.st = some Config.stateDefault) ∧
    (b.life = .ready ∧ b.st = some Config.stateDefault) ∧
    (∀ h f o frame, exec (.decode h f o frame) b = exec (.decode h f o frame) a) ∧
    ∀ frame, ∃ t, exec (.decode true true true frame) a = .next t

/-- What R138 derives, for any engine: after DECODE of `A` the frame `B` is decoded from the triple the
engine left for `A`, after a RESET between them from `STATE_DEFAULT`, and the two responses agree
exactly when the engine's samples and the sum of its counts agree. -/
def Obligations.ContinuityOfTheState : Prop :=
  ∀ {PS Q : Type} (P : Params PS Q) (b : BlockState PS) (st : Triple PS) (A B : AmbeFrame),
    b.st = some st →
    let s1 := (P.engine (unpack A) st P.qHigh).st
    let r1 := P.engine (unpack B) s1 P.qHigh
    let r2 := P.engine (unpack B) P.stateDefault P.qHigh
    let dA := Command.decode true true true A
    let dB := Command.decode true true true B
    (blockRun P b [dA, dB]).1 = .active r1.st ∧
    (blockRun P b [dA, .reset true, dB]).1 = .active r2.st ∧
    ((blockRun P b [dA, dB]).2.getLast? = (blockRun P b [dA, .reset true, dB]).2.getLast? ↔
      r1.pcm = r2.pcm ∧ r1.e1 + r1.e2 = r2.e1 + r2.e2)

/-- The state must be carried (R139, R20, R221): a step changes `life` or `st` only on power-on reset,
CREATE, a RESET or DESTROY with the handle, or a DECODE with every reference present. -/
def Obligations.OnlyTheseStepsWriteRegisters : Prop :=
  ∀ s t : State, step s = .next t → t.life ≠ s.life ∨ t.st ≠ s.st →
    ∃ rest, s.inputs = .powerOn :: rest ∨
      ∃ w i, s.inputs = .word w :: rest ∧ decode w = .ok i ∧
        (i = .create ∨ i = .reset true ∨ (∃ frame, i = .decode true true true frame) ∨
          i = .destroy true)

/-! ## Steps and runs -/

/-- A step runs the instruction its word stands for, on the state with that word taken and nothing else
changed (R19, R50, log entry 8). -/
def Obligations.StepRunsTheDecodedInstruction : Prop :=
  ∀ (s : State) (w : PortWord) (rest : List Input) (i : Instr),
    s.inputs = .word w :: rest → decode w = .ok i →
    step s = exec i { s with inputs := rest }

/-- With nothing presented the block is idle: its registers keep their values and the last response is
no longer on the ports (R73, R198, R221; a step of idling is the model's, log entry 8). -/
def Obligations.IdleStepHoldsTheRegisters : Prop :=
  ∀ s : State, s.inputs = [] →
    step s = .next { s with ports := { rsp := none, eng := none, unp := none, dec := none } }

/-- `rst_n` asserted between two commands returns the instance to `(UNINIT, none)` with every output
`none` and no response (R210; what it leaves of the caller's side is log entry 10). -/
def Obligations.PowerOnResetStep : Prop :=
  ∀ (s : State) (rest : List Input), s.inputs = .powerOn :: rest →
    step s = .next { s with
      life := .uninit
      st := none
      diag := none
      inputs := rest
      ports := { rsp := none, eng := none, unp := none, dec := none } }

/-- What power-on reset leaves (R211). The last clause, that nothing is executed until the caller issues
a command, rests on the model's idle steps and its empty list of inputs at reset, log entry 8. -/
def Obligations.ValuesAfterPowerOnReset : Prop :=
  State.reset.life = .uninit ∧ State.reset.st = none ∧ State.reset.diag = none ∧
  State.reset.ports.rsp = none ∧ State.reset.ports.eng = none ∧
  State.reset.ports.unp = none ∧ State.reset.ports.dec = none ∧
  ∀ k : Nat, Sys2Proof.core.run k State.reset = .next State.reset

/-- The invariant holds after power-on reset. -/
def Obligations.PowerOnResetHasTheInvariant : Prop := Inv State.reset

/-- Every step from a state with the invariant leaves one with the invariant: `st` holds no value in
UNINIT, `STATE_DEFAULT` in READY and some value in ACTIVE, and the diagnostic buffer holds none
(what R23 and R24 derive, R31, R32). -/
def Obligations.EveryStepKeepsTheInvariant : Prop :=
  ∀ s t : State, Inv s → step s = .next t → Inv t

/-- With the invariant nothing stops the block but a word on the engine port that is no call: every
command in every state has an outcome, and it is a response (R135, "The table is total"). -/
def Obligations.NothingStopsTheBlock : Prop :=
  (∀ s : State, Inv s →
    (∃ t, step s = .next t) ∨
    ∃ w st rest, s.inputs = .word (.eng w st) :: rest ∧ w.extractLsb' 0 24 ≠ 0) ∧
  (∀ (s : State) (c : Command), Inv s →
    ∃ t r, exec c.toInstr s = .next t ∧ t.ports.rsp = some r)

/-- The machine's meanings are the one function of R136: whenever the registers hold a state of it, a
command leaves the registers and gives the response that the function says. -/
def Obligations.CommandsAreTheStepFunction : Prop :=
  ∀ (s : State) (b : BlockState ParamSet) (c : Command), s.block = some b →
    ∃ t, exec c.toInstr s = .next t ∧
      t.block = some (blockStep Config.params b c).1 ∧
      t.ports.rsp = some (blockStep Config.params b c).2

/-- A run of the machine over the commands its caller presents is the fold of R136 over them, and what
the caller presents after them is still to come. -/
def Obligations.RunIsTheFoldOfTheStepFunction : Prop :=
  ∀ (cs : List Command) (s : State) (b : BlockState ParamSet) (rest : List Input),
    s.block = some b → s.inputs = cs.map presented ++ rest →
    ∃ t : State, Sys2Proof.core.run cs.length s = .next t ∧
      t.block = some (blockRun Config.params b cs).1 ∧ t.inputs = rest ∧
      (cs ≠ [] → t.ports.rsp = (blockRun Config.params b cs).2.getLast?)

/-- A caller that keeps the duties of R175, R212 and R217 sees every command end `OK`, and no command
of the run ends `LIFECYCLE`, which R183 asks a claim about a sequence to prove. -/
def Obligations.ContractKeepsEveryCommandOk : Prop :=
  ∀ (cs : List Command) (s : State) (b : BlockState ParamSet) (rest : List Input),
    s.block = some b → s.inputs = cs.map presented ++ rest →
    obeysContract (live s) cs = true →
    ∀ k, k ≤ cs.length →
      ∃ t : State, Sys2Proof.core.run k s = .next t ∧
        t.lifecycleFault = s.lifecycleFault ∧ (0 < k → lastStatus t = some .ok)

/-- What R52 derives from R33: whatever commands other instances get in between, each instance ends in
the state and gives the responses it would have alone. -/
def Obligations.InstancesAreIndependent : Prop :=
  ∀ {PS Q : Type} (P : Params PS Q) (sys : BlockSystem PS) (sched : List (Nat × Command))
    (i : Nat) (b : BlockState PS),
    sys[i]? = some b →
    (systemRun P sys sched).1[i]? = some (blockRun P b (forInstance i sched)).1 ∧
    forInstance i (systemRun P sys sched).2 = (blockRun P b (forInstance i sched)).2

/-! ## The reference host, outside the block -/

/-- R160: record `r` is file bytes `9r` to `9r + 8` in order, and a file of `N` bytes holds `N div 9`
complete records and a trailing partial one exactly when `N mod 9` is not 0. -/
def Obligations.HostRecordsAreTheFile : Prop :=
  ∀ file : List Byte,
    (hostRecords file).length = file.length / 9 ∧
    (hostHasPartial file = true ↔ file.length % 9 ≠ 0) ∧
    ∀ (r : Nat) (frame : AmbeFrame), (hostRecords file)[r]? = some frame →
      ∀ b : Fin 9, file[9 * r + b.val]? = some frame[b]

/-- R166: the samples in order, each as two bytes, low byte first. -/
def Obligations.HostSerialisesLowByteFirst : Prop :=
  ∀ pcm : PcmFrame,
    (serialise pcm).length = 320 ∧
    ∀ n : Fin 160,
      (serialise pcm)[2 * n.val]? = some (pcm[n].extractLsb' 0 8) ∧
      (serialise pcm)[2 * n.val + 1]? = some (pcm[n].extractLsb' 8 8)

/-- The stream loop of R161 on a fresh block with both files good, for any engine: it issues CREATE, a
DECODE for each record and DESTROY, reports its counters, ends with exit code 0 and the block in
UNINIT, warns exactly of a partial record (R162), and writes 320 bytes for each accepted frame (what
R165 derives). That the counters are exact for a file of any length is the model's choice, log entry
17: the spec gives them no width (R163, N13). -/
def Obligations.HostStreamOfAGoodFile : Prop :=
  ∀ {PS Q : Type} (P : Params PS Q) (file : List Byte),
    let o := hostMain P .uninit (.decode (some file) true none)
    o.exitCode = 0 ∧ o.failure = none ∧ o.reportsCounters = true ∧ o.block = .uninit ∧
    o.warning = hostHasPartial file ∧
    o.commands = .create :: (hostRecords file).map (Command.decode true true true) ++
      [.destroy true] ∧
    o.tally.frames = file.length / 9 ∧ o.tally.muted ≤ o.tally.frames ∧
    o.tally.out.length = 320 * (o.tally.frames - o.tally.muted)

/-- The counters and the output of R163 and R164 against the block's own responses to the commands the
host issues, for any engine: `errors` sums the totals of all decoded frames, `muted` counts the
rejected ones, and the output is the serialised PCM of the accepted ones in order. That the counters
are exact for a file of any length is the model's choice, log entry 17: the spec gives them no width
(R163, N13). -/
def Obligations.HostCountsWhatTheBlockAnswers : Prop :=
  ∀ {PS Q : Type} (P : Params PS Q) (file : List Byte),
    let o := hostMain P .uninit (.decode (some file) true none)
    let ds := (blockRun P .uninit o.commands).2.filterMap (·.data)
    o.tally.frames = ds.length ∧
    o.tally.errors = (ds.map (·.total)).sum ∧
    o.tally.muted = ds.countP (fun d => !d.accepted) ∧
    o.tally.out = (ds.filter (·.accepted)).flatMap fun d => serialise d.pcm

/-- The exit codes. R167: a `decode` on a fresh block exits 0 exactly when both files open and no write
falls short, a partial record and muted frames being success, and 1 otherwise, and an allocation failure
exits 1. R172: `info` shows the constants of R7 and `VERSION`, issues no command and exits 0. R173:
anything else shows the usage and exits 1. A write falls short when the block accepts more frames than
can be written. -/
def Obligations.HostExitCodes : Prop :=
  ∀ {PS Q : Type} (P : Params PS Q) (b : BlockState PS),
    (∀ (input : Option (List Byte)) (outOpens : Bool) (writes : Option Nat),
      let exit := (hostMain P b (.decode input outOpens writes)).exitCode
      (input = none → exit = 1) ∧ (outOpens = false → exit = 1) ∧
      (b ≠ .uninit → exit = 1) ∧
      ∀ file, b = .uninit → input = some file → outOpens = true →
        (writes = none → exit = 0) ∧
        ∀ n, writes = some n → exit = if n < acceptedFrames P file then 1 else 0) ∧
    ((hostMain P b .info).exitCode = 0 ∧ (hostMain P b .info).commands = [] ∧
      (hostMain P b .info).block = b ∧
      (hostMain P b .info).info = some
        { frameBytes := 9, frameBits := 72, nGroups := 4, groupBits := 24, nDataGroups := 3
          pcmSamples := 160, sampleBits := 16, sampleRateHz := 8000, frameMs := 20
          muteThreshold := 7, version := Config.version }) ∧
    (hostMain P b .other).exitCode = 1 ∧ (hostMain P b .other).usage = true

/-- What a host that gives up leaves and reports (R161, R167, R168), for any engine. Neither an input
nor an output that does not open reaches the block, and the input's failure is the one reported where
both fail; a CREATE that fails is the one command then; a write that falls short ends the stream with
320 bytes for each frame written before it. Opening both files first, the input before the output,
counting a short write by whole frames, and ending without DESTROY, warning or report of the counters
are the model's choice, log entry 11. -/
def Obligations.HostGivesUp : Prop :=
  ∀ {PS Q : Type} (P : Params PS Q) (b : BlockState PS),
    (∀ outOpens writes, let o := hostMain P b (.decode none outOpens writes)
      o.failure = some .inputUnreadable ∧ o.commands = [] ∧ o.block = b) ∧
    (∀ file writes, let o := hostMain P b (.decode (some file) false writes)
      o.failure = some .outputUnwritable ∧ o.commands = [] ∧ o.block = b) ∧
    (∀ file writes, b ≠ .uninit →
      let o := hostMain P b (.decode (some file) true writes)
      o.failure = some (.commandFailed .allocFail) ∧ o.commands = [.create] ∧ o.block = b) ∧
    (∀ file n, n < acceptedFrames P file →
      let o := hostMain P .uninit (.decode (some file) true (some n))
      o.failure = some .shortWrite ∧ o.tally.out.length = 320 * n ∧
        .destroy true ∉ o.commands ∧ o.warning = false ∧ o.reportsCounters = false) ∧
    (∀ file n, acceptedFrames P file ≤ n →
      hostMain P .uninit (.decode (some file) true (some n)) =
        hostMain P .uninit (.decode (some file) true none))
end

