-- ==== Sys2Proof/Laws/Layout.lean ====
section
/-! SUPPORT. What the bit-order and bus functions give, bit by bit and cell by cell, and what the
comparator says: one lemma each, so that callers need not unfold them. -/

namespace Sys2Proof

/-- `e(k)` for k in 0..71 is bit `7 − (k mod 8)` of byte `k div 8` (R11). -/
theorem extract_of_lt (frame : AmbeFrame) (k : Nat) (h : k < 72) :
    extract frame k = (frame[k / 8]'(show k / 8 < 9 by omega)).getLsbD (7 - k % 8) := by
  have hb : k / 8 < 9 := by omega
  simp [extract, Vector.getD, hb]

/-- Wire `n` of the bus `F` is `e(71 − n)` (R65). -/
theorem frameBus_getLsbD (frame : AmbeFrame) (n : Nat) :
    (frameBus frame).getLsbD n = if n < 72 then extract frame (71 - n) else false := by
  simp only [frameBus, BitVec.getLsbD_ofFnBE]
  split <;> rename_i h
  · congr 1
    simp only [Fin.val_rev, frameBits]
    omega
  · rfl

/-- Byte `b` off the bus (R65). -/
theorem frameOfBus_getElem (F : BitVec frameBits) (b : Nat) (h : b < frameBytes) :
    (frameOfBus F)[b] = F.extractLsb' (64 - 8 * b) 8 := by
  simp [frameOfBus]

/-- The field `frame` of a DECODE with `f = 1` carries the frame (R65). -/
@[simp] theorem frameField_present (frame : AmbeFrame) : frameField true frame = frameBus frame := rfl

/-- The field `frame` of a DECODE with `f = 0` is written as 0 (R68). -/
@[simp] theorem frameField_ignored (frame : AmbeFrame) : frameField false frame = 0 := rfl

/-- With `f = 1` the frame is read off the bus (R65). -/
theorem cmdFrame_present {w : BitVec cmdBits} (h : cmdF w = true) :
    cmdFrame w = frameOfBus (w.extractLsb' 0 frameBits) := by
  simp [cmdFrame, h]

/-- With `f = 0` the field is not looked at (R68). -/
theorem cmdFrame_ignored {w : BitVec cmdBits} (h : cmdF w = false) : cmdFrame w = .canonical := by
  simp [cmdFrame, h]

/-- `cell` reads the layout where there is one (R12). -/
theorem cell_of_lt (g : Groups) (j p : Nat) (hj : j < nGroups) (hp : p < groupBits) :
    cell g j p = g[j][p] := by
  simp [cell, hj, hp]

/-- Wire `n` of the bus `G` is the cell at group `(95 − n) div 24`, position `(95 − n) mod 24` (R66). -/
theorem groupsBus_getLsbD (g : Groups) (n : Nat) :
    (groupsBus g).getLsbD n =
      if n < 96 then cell g ((95 - n) / 24) ((95 - n) % 24) else false := by
  simp only [groupsBus, BitVec.getLsbD_ofFnBE]
  split <;> rename_i h
  · have e : (Fin.rev (⟨n, h⟩ : Fin groupBusBits)).val = 95 - n := by
      simp only [Fin.val_rev, groupBusBits]; omega
    rw [e]
  · rfl

/-- The cells off the bus (R66). -/
theorem groupsOfBus_getElem (G : BitVec groupBusBits) (j p : Nat) (hj : j < nGroups)
    (hp : p < groupBits) : (groupsOfBus G)[j][p] = G.getLsbD (95 - 24 * j - p) := by
  simp [groupsOfBus]

/-- Two layouts with the same cells are the same layout. -/
theorem groups_ext {g g' : Groups}
    (h : ∀ (j p : Nat) (hj : j < nGroups) (hp : p < groupBits), g[j][p] = g'[j][p]) : g = g' := by
  apply Vector.ext
  intro j hj
  apply Vector.ext
  intro p hp
  exact h j p hj hp

/-- Two frames with the same bits are the same frame. -/
theorem frame_ext {f f' : AmbeFrame}
    (h : ∀ (b i : Nat) (hb : b < frameBytes), i < 8 → f[b].getLsbD i = f'[b].getLsbD i) :
    f = f' := by
  apply Vector.ext
  intro b hb
  apply BitVec.eq_of_getLsbD_eq
  intro i hi
  exact h b i hb hi

/-- `group3Zero` says that every cell of group 3 is 0 (R86). -/
theorem group3Zero_iff (g : Groups) :
    group3Zero g = true ↔ ∀ (p : Nat) (hp : p < groupBits), g[3][p] = false := by
  simp only [group3Zero, List.all_eq_true, Bool.not_eq_true', Vector.mem_toList_iff,
    Vector.mem_iff_getElem]
  constructor
  · intro h p hp
    exact h _ ⟨p, hp, rfl⟩
  · rintro h x ⟨p, hp, rfl⟩
    exact h p hp

namespace Machine

/-- UNPACK's cell at position `p` of group `j` (R62, R63). -/
theorem unpack_getElem (frame : AmbeFrame) (j p : Nat) (hj : j < nGroups) (hp : p < groupBits) :
    (unpack frame)[j][p] = if j < 3 then extract frame (24 * j + p) else false := by
  simp [unpack]

/-- One `MemWrite` to GROUP changes one cell (R15). -/
theorem writeCell_getElem (g : Groups) (j p : Nat) (bit : Bool) (j' p' : Nat) (hj : j' < nGroups)
    (hp : p' < groupBits) :
    (writeCell g j p bit)[j'][p'] = if j = j' ∧ p = p' then bit else g[j'][p'] := by
  unfold writeCell
  by_cases hjlt : j < nGroups
  · have e : g[j]? = some g[j] := by simp [hjlt]
    simp only [e, Vector.getElem_setIfInBounds]
    by_cases hjj : j = j'
    · subst hjj
      simp [Vector.getElem_setIfInBounds]
    · simp [hjj]
  · have e : g[j]? = none := by simp; omega
    simp only [e]
    rw [if_neg]
    omega

/-- Byte `b`, bit `i` of the recovered frame (R89). -/
theorem repack_getLsbD (g : Groups) (b i : Nat) (hb : b < frameBytes) (hi : i < 8) :
    (repack g)[b].getLsbD i = cell g (b / 3) (8 * (b % 3) + (7 - i)) := by
  simp [repack, hi]

/-- Position `p` of a group word (R13). -/
theorem groupWord_getLsbD (g : Groups) (j n : Nat) :
    (groupWord g j).getLsbD n = if n < 24 then cell g j (23 - n) else false := by
  simp only [groupWord, BitVec.getLsbD_ofFnBE]
  split <;> rename_i h
  · congr 1
    simp only [Fin.val_rev, groupBits]
    omega
  · rfl

/-- The comparator as a proposition (R102). -/
theorem acceptsTotal_eq_true {n : Nat} : acceptsTotal n = true ↔ n ≤ 7 := by
  simp [acceptsTotal]

/-- A wire of the sample bus (R70). -/
theorem pcmBus_getLsbD (pcm : PcmFrame) (n : Nat) :
    (pcmBus pcm).getLsbD n =
      if n < 2560 then (pcm.getD (n / 16) 0).getLsbD (n % 16) else false := by
  simp only [pcmBus, BitVec.getLsbD_ofFnLE]
  split <;> rename_i h
  · rw [if_pos (show n < 2560 from h)]
  · rw [if_neg (show ¬ n < 2560 from h)]

end Machine

end Sys2Proof
end

