-- ==== Sys2Proof/Laws/State.lean ====
section
/-! SUPPORT. What each named update of `State` leaves in each field, one lemma per field per update,
so that no later proof unfolds a record update; and the reset state's fields. -/

namespace Sys2Proof.Machine

variable (s : State)

@[simp] theorem State.reset_life : State.reset.life = .uninit := rfl
@[simp] theorem State.reset_st : State.reset.st = none := rfl
@[simp] theorem State.reset_diag : State.reset.diag = none := rfl
@[simp] theorem State.reset_ports : State.reset.ports = Ports.quiet := rfl
@[simp] theorem State.reset_pcmBuf : State.reset.pcmBuf = none := rfl
@[simp] theorem State.reset_inputs : State.reset.inputs = [] := rfl
@[simp] theorem State.reset_lifecycleFault : State.reset.lifecycleFault = false := rfl

section initDecoder

variable (P : Params ParamSet Quality)

@[simp] theorem State.initDecoder_life : (s.initDecoder P).life = .ready := rfl
@[simp] theorem State.initDecoder_st : (s.initDecoder P).st =
    some P.stateDefault := rfl
@[simp] theorem State.initDecoder_diag : (s.initDecoder P).diag = s.diag := rfl
@[simp] theorem State.initDecoder_ports : (s.initDecoder P).ports = s.ports := rfl
@[simp] theorem State.initDecoder_pcmBuf : (s.initDecoder P).pcmBuf = s.pcmBuf := rfl
@[simp] theorem State.initDecoder_inputs : (s.initDecoder P).inputs = s.inputs := rfl
@[simp] theorem State.initDecoder_lifecycleFault : (s.initDecoder P).lifecycleFault =
    s.lifecycleFault := rfl

end initDecoder

@[simp] theorem State.storeDecoder_life (x : DecoderState) : (s.storeDecoder x).life =
    .active := rfl
@[simp] theorem State.storeDecoder_st (x : DecoderState) : (s.storeDecoder x).st = some x := rfl
@[simp] theorem State.storeDecoder_diag (x : DecoderState) : (s.storeDecoder x).diag = s.diag := rfl
@[simp] theorem State.storeDecoder_ports (x : DecoderState) : (s.storeDecoder x).ports =
    s.ports := rfl
@[simp] theorem State.storeDecoder_pcmBuf (x : DecoderState) : (s.storeDecoder x).pcmBuf =
    s.pcmBuf := rfl
@[simp] theorem State.storeDecoder_inputs (x : DecoderState) : (s.storeDecoder x).inputs =
    s.inputs := rfl
@[simp] theorem State.storeDecoder_lifecycleFault (x : DecoderState) : (s.storeDecoder x).lifecycleFault =
    s.lifecycleFault := rfl

@[simp] theorem State.releaseDecoder_life : (s.releaseDecoder).life = .uninit := rfl
@[simp] theorem State.releaseDecoder_st : (s.releaseDecoder).st = none := rfl
@[simp] theorem State.releaseDecoder_diag : (s.releaseDecoder).diag = s.diag := rfl
@[simp] theorem State.releaseDecoder_ports : (s.releaseDecoder).ports = s.ports := rfl
@[simp] theorem State.releaseDecoder_pcmBuf : (s.releaseDecoder).pcmBuf = s.pcmBuf := rfl
@[simp] theorem State.releaseDecoder_inputs : (s.releaseDecoder).inputs = s.inputs := rfl
@[simp] theorem State.releaseDecoder_lifecycleFault : (s.releaseDecoder).lifecycleFault =
    s.lifecycleFault := rfl

@[simp] theorem State.respond_life (r : Response) : (s.respond r).life = s.life := rfl
@[simp] theorem State.respond_st (r : Response) : (s.respond r).st = s.st := rfl
@[simp] theorem State.respond_diag (r : Response) : (s.respond r).diag = s.diag := rfl
@[simp] theorem State.respond_ports (r : Response) : (s.respond r).ports =
    { Ports.quiet with rsp := some r } := rfl
@[simp] theorem State.respond_pcmBuf (r : Response) : (s.respond r).pcmBuf = s.pcmBuf := rfl
@[simp] theorem State.respond_inputs (r : Response) : (s.respond r).inputs = s.inputs := rfl
@[simp] theorem State.respond_lifecycleFault (r : Response) : (s.respond r).lifecycleFault =
    s.lifecycleFault := rfl

@[simp] theorem State.respondStatus_life (f : Status) : (s.respondStatus f).life = s.life := rfl
@[simp] theorem State.respondStatus_st (f : Status) : (s.respondStatus f).st = s.st := rfl
@[simp] theorem State.respondStatus_diag (f : Status) : (s.respondStatus f).diag = s.diag := rfl
@[simp] theorem State.respondStatus_ports (f : Status) : (s.respondStatus f).ports =
    { Ports.quiet with rsp := some { status := f, data := none } } := rfl
@[simp] theorem State.respondStatus_pcmBuf (f : Status) : (s.respondStatus f).pcmBuf =
    s.pcmBuf := rfl
@[simp] theorem State.respondStatus_inputs (f : Status) : (s.respondStatus f).inputs =
    s.inputs := rfl
@[simp] theorem State.respondStatus_lifecycleFault (f : Status) : (s.respondStatus f).lifecycleFault =
    s.lifecycleFault := rfl

@[simp] theorem State.recordFailure_life (f : Status) : (s.recordFailure f).life = s.life := rfl
@[simp] theorem State.recordFailure_st (f : Status) : (s.recordFailure f).st = s.st := rfl
@[simp] theorem State.recordFailure_diag (f : Status) : (s.recordFailure f).diag = s.diag := rfl
@[simp] theorem State.recordFailure_ports (f : Status) : (s.recordFailure f).ports = s.ports := rfl
@[simp] theorem State.recordFailure_pcmBuf (f : Status) : (s.recordFailure f).pcmBuf =
    s.pcmBuf := rfl
@[simp] theorem State.recordFailure_inputs (f : Status) : (s.recordFailure f).inputs =
    s.inputs := rfl
@[simp] theorem State.recordFailure_lifecycleFault (f : Status) : (s.recordFailure f).lifecycleFault =
    (s.lifecycleFault || decide (f = .lifecycle)) := rfl

@[simp] theorem State.dropDiag_life : (s.dropDiag).life = s.life := rfl
@[simp] theorem State.dropDiag_st : (s.dropDiag).st = s.st := rfl
@[simp] theorem State.dropDiag_diag : (s.dropDiag).diag = none := rfl
@[simp] theorem State.dropDiag_ports : (s.dropDiag).ports = s.ports := rfl
@[simp] theorem State.dropDiag_pcmBuf : (s.dropDiag).pcmBuf = s.pcmBuf := rfl
@[simp] theorem State.dropDiag_inputs : (s.dropDiag).inputs = s.inputs := rfl
@[simp] theorem State.dropDiag_lifecycleFault : (s.dropDiag).lifecycleFault =
    s.lifecycleFault := rfl

@[simp] theorem State.deliver_life (c : EngineCall) : (s.deliver c).life = s.life := rfl
@[simp] theorem State.deliver_st (c : EngineCall) : (s.deliver c).st = s.st := rfl
@[simp] theorem State.deliver_diag (c : EngineCall) : (s.deliver c).diag = s.diag := rfl
@[simp] theorem State.deliver_ports (c : EngineCall) : (s.deliver c).ports = { Ports.quiet with
      rsp := some { status := .ok, data := some (decodeData c.ans) }, eng := some c } := rfl
@[simp] theorem State.deliver_pcmBuf (c : EngineCall) : (s.deliver c).pcmBuf = some c.ans.pcm := rfl
@[simp] theorem State.deliver_inputs (c : EngineCall) : (s.deliver c).inputs = s.inputs := rfl
@[simp] theorem State.deliver_lifecycleFault (c : EngineCall) : (s.deliver c).lifecycleFault =
    s.lifecycleFault := rfl

@[simp] theorem State.showEngine_life (c : EngineCall) : (s.showEngine c).life = s.life := rfl
@[simp] theorem State.showEngine_st (c : EngineCall) : (s.showEngine c).st = s.st := rfl
@[simp] theorem State.showEngine_diag (c : EngineCall) : (s.showEngine c).diag = s.diag := rfl
@[simp] theorem State.showEngine_ports (c : EngineCall) : (s.showEngine c).ports =
    { Ports.quiet with eng := some c } := rfl
@[simp] theorem State.showEngine_pcmBuf (c : EngineCall) : (s.showEngine c).pcmBuf = s.pcmBuf := rfl
@[simp] theorem State.showEngine_inputs (c : EngineCall) : (s.showEngine c).inputs = s.inputs := rfl
@[simp] theorem State.showEngine_lifecycleFault (c : EngineCall) : (s.showEngine c).lifecycleFault =
    s.lifecycleFault := rfl

@[simp] theorem State.showGroups_life (g : Groups) : (s.showGroups g).life = s.life := rfl
@[simp] theorem State.showGroups_st (g : Groups) : (s.showGroups g).st = s.st := rfl
@[simp] theorem State.showGroups_diag (g : Groups) : (s.showGroups g).diag = s.diag := rfl
@[simp] theorem State.showGroups_ports (g : Groups) : (s.showGroups g).ports =
    { Ports.quiet with unp := some g } := rfl
@[simp] theorem State.showGroups_pcmBuf (g : Groups) : (s.showGroups g).pcmBuf = s.pcmBuf := rfl
@[simp] theorem State.showGroups_inputs (g : Groups) : (s.showGroups g).inputs = s.inputs := rfl
@[simp] theorem State.showGroups_lifecycleFault (g : Groups) : (s.showGroups g).lifecycleFault =
    s.lifecycleFault := rfl

@[simp] theorem State.showVerdict_life (v : Verdict) : (s.showVerdict v).life = s.life := rfl
@[simp] theorem State.showVerdict_st (v : Verdict) : (s.showVerdict v).st = s.st := rfl
@[simp] theorem State.showVerdict_diag (v : Verdict) : (s.showVerdict v).diag = s.diag := rfl
@[simp] theorem State.showVerdict_ports (v : Verdict) : (s.showVerdict v).ports =
    { Ports.quiet with dec := some v } := rfl
@[simp] theorem State.showVerdict_pcmBuf (v : Verdict) : (s.showVerdict v).pcmBuf = s.pcmBuf := rfl
@[simp] theorem State.showVerdict_inputs (v : Verdict) : (s.showVerdict v).inputs = s.inputs := rfl
@[simp] theorem State.showVerdict_lifecycleFault (v : Verdict) : (s.showVerdict v).lifecycleFault =
    s.lifecycleFault := rfl

@[simp] theorem State.powerOnReset_life : (s.powerOnReset).life = .uninit := rfl
@[simp] theorem State.powerOnReset_st : (s.powerOnReset).st = none := rfl
@[simp] theorem State.powerOnReset_diag : (s.powerOnReset).diag = none := rfl
@[simp] theorem State.powerOnReset_ports : (s.powerOnReset).ports = Ports.quiet := rfl
@[simp] theorem State.powerOnReset_pcmBuf : (s.powerOnReset).pcmBuf = s.pcmBuf := rfl
@[simp] theorem State.powerOnReset_inputs : (s.powerOnReset).inputs = s.inputs := rfl
@[simp] theorem State.powerOnReset_lifecycleFault : (s.powerOnReset).lifecycleFault =
    s.lifecycleFault := rfl

@[simp] theorem State.idle_life : (s.idle).life = s.life := rfl
@[simp] theorem State.idle_st : (s.idle).st = s.st := rfl
@[simp] theorem State.idle_diag : (s.idle).diag = s.diag := rfl
@[simp] theorem State.idle_ports : (s.idle).ports = Ports.quiet := rfl
@[simp] theorem State.idle_pcmBuf : (s.idle).pcmBuf = s.pcmBuf := rfl
@[simp] theorem State.idle_inputs : (s.idle).inputs = s.inputs := rfl
@[simp] theorem State.idle_lifecycleFault : (s.idle).lifecycleFault = s.lifecycleFault := rfl

@[simp] theorem State.present_life (w : PortWord) : (s.present w).life = s.life := rfl
@[simp] theorem State.present_st (w : PortWord) : (s.present w).st = s.st := rfl
@[simp] theorem State.present_diag (w : PortWord) : (s.present w).diag = s.diag := rfl
@[simp] theorem State.present_ports (w : PortWord) : (s.present w).ports = s.ports := rfl
@[simp] theorem State.present_pcmBuf (w : PortWord) : (s.present w).pcmBuf = s.pcmBuf := rfl
@[simp] theorem State.present_inputs (w : PortWord) : (s.present w).inputs =
    .word w :: s.inputs := rfl
@[simp] theorem State.present_lifecycleFault (w : PortWord) : (s.present w).lifecycleFault =
    s.lifecycleFault := rfl

@[simp] theorem Ports.quiet_rsp : Ports.quiet.rsp = none := rfl
@[simp] theorem Ports.quiet_eng : Ports.quiet.eng = none := rfl
@[simp] theorem Ports.quiet_unp : Ports.quiet.unp = none := rfl
@[simp] theorem Ports.quiet_dec : Ports.quiet.dec = none := rfl

end Sys2Proof.Machine
end

