-- ==== Sys2Proof/Laws/Ops.lean ====
section
/-! SUPPORT. What each shared operation and each instruction can do, once: if it answers `next t`, then
`t` is one of these. Later proofs cite these and unfold nothing. -/

namespace Sys2Proof.Machine

/-- A failure answers a next state and no other outcome (R186). -/
theorem raise_eq_next {f : Status} {s t : State} :
    raise f s = .next t ↔ t = (s.recordFailure f).respondStatus f := by
  simp [raise, eq_comm]

/-- What the caller presents next, taken apart (R50, R73). -/
theorem takeInput_eq_some {s t : State} {i : Input} :
    s.takeInput = some (i, t) ↔ ∃ rest, s.inputs = i :: rest ∧ t = { s with inputs := rest } := by
  unfold State.takeInput
  cases h : s.inputs with
  | nil => simp
  | cons j rest => simp [eq_comm]

theorem takeInput_eq_none {s : State} : s.takeInput = none ↔ s.inputs = [] := by
  unfold State.takeInput
  cases h : s.inputs with
  | nil => simp
  | cons j rest => simp

/-- CREATE (R131). -/
theorem execCreate_cases {s t : State} (h : execCreate s = .next t) :
    (s.life = .uninit ∧ t = (s.initDecoder Config.params).respondStatus .ok) ∨
    (s.life ≠ .uninit ∧ t = (s.recordFailure .allocFail).respondStatus .allocFail) := by
  unfold execCreate at h
  split at h
  · exact .inr ⟨‹_›, raise_eq_next.mp h⟩
  · exact .inl ⟨not_not.mp ‹_›, by simpa [eq_comm] using h⟩

/-- RESET (R132). -/
theorem execReset_cases {b : Bool} {s t : State} (h : execReset b s = .next t) :
    (b = false ∧ t = (s.recordFailure .invalidArg).respondStatus .invalidArg) ∨
    (b = true ∧ s.life = .uninit ∧ t = (s.recordFailure .lifecycle).respondStatus .lifecycle) ∨
    (b = true ∧ s.life ≠ .uninit ∧ t = (s.initDecoder Config.params).respondStatus .ok) := by
  unfold execReset at h
  split at h
  · exact .inl ⟨‹_›, raise_eq_next.mp h⟩
  · rename_i hb
    have hb : b = true := by simpa using hb
    split at h
    · exact .inr (.inl ⟨hb, ‹_›, raise_eq_next.mp h⟩)
    · exact .inr (.inr ⟨hb, ‹_›, by simpa [eq_comm] using h⟩)

/-- The presence check of DECODE (R133). -/
theorem decodeArgsPresent_eq_true {h f o : Bool} :
    decodeArgsPresent h f o = true ↔ h = true ∧ f = true ∧ o = true := by
  simp [decodeArgsPresent, and_assoc]

/-- DECODE (R133). -/
theorem execDecode_cases {h f o : Bool} {frame : AmbeFrame} {s t : State}
    (hx : execDecode h f o frame s = .next t) :
    (decodeArgsPresent h f o = false ∧
      t = (s.recordFailure .invalidArg).respondStatus .invalidArg) ∨
    (decodeArgsPresent h f o = true ∧ s.life = .uninit ∧
      t = (s.recordFailure .lifecycle).respondStatus .lifecycle) ∨
    (decodeArgsPresent h f o = true ∧ s.life ≠ .uninit ∧
      ∃ st, s.st = some st ∧ t = decodeFrame frame st s) := by
  unfold execDecode at hx
  split at hx
  · exact .inl ⟨‹_›, raise_eq_next.mp hx⟩
  · rename_i hb
    have hb : decodeArgsPresent h f o = true := by simpa using hb
    split at hx
    · exact .inr (.inl ⟨hb, ‹_›, raise_eq_next.mp hx⟩)
    · refine .inr (.inr ⟨hb, ‹_›, ?_⟩)
      split at hx
      · simp at hx
      · exact ⟨_, ‹_›, by simpa [eq_comm] using hx⟩

/-- With `f = 0` DECODE ignores its frame (R68, R133 d). -/
theorem execDecode_ignores_frame (h o : Bool) (frame frame' : AmbeFrame) (s : State) :
    execDecode h false o frame s = execDecode h false o frame' s := by
  simp [execDecode, decodeArgsPresent]

/-- DESTROY (R134). -/
theorem execDestroy_cases {b : Bool} {s t : State} (h : execDestroy b s = .next t) :
    (b = false ∧ t = s.respondStatus .ok) ∨
    (b = true ∧ s.life = .uninit ∧ t = (s.recordFailure .lifecycle).respondStatus .lifecycle) ∨
    (b = true ∧ s.life ≠ .uninit ∧ t = s.releaseDecoder.respondStatus .ok) := by
  unfold execDestroy at h
  split at h
  · exact .inl ⟨‹_›, by simpa [eq_comm] using h⟩
  · rename_i hb
    have hb : b = true := by simpa using hb
    split at h
    · exact .inr (.inl ⟨hb, ‹_›, raise_eq_next.mp h⟩)
    · exact .inr (.inr ⟨hb, ‹_›, by simpa [eq_comm] using h⟩)

/-- What a DECODE that runs the engine leaves (R133). -/
theorem decodeFrame_fields (frame : AmbeFrame) (st : DecoderState) (s : State) :
    let c := callEngine Config.params (unpack frame) st
    (decodeFrame frame st s).life = .active ∧
    (decodeFrame frame st s).st = some c.ans.st ∧
    (decodeFrame frame st s).diag = none ∧
    (decodeFrame frame st s).pcmBuf = some c.ans.pcm ∧
    (decodeFrame frame st s).inputs = s.inputs ∧
    (decodeFrame frame st s).lifecycleFault = s.lifecycleFault ∧
    (decodeFrame frame st s).ports =
      { rsp := some { status := .ok, data := some (decodeData c.ans) }, eng := some c,
        unp := none, dec := none } :=
  ⟨rfl, rfl, rfl, rfl, rfl, rfl, rfl⟩

/-- The engine call's request: what it is given, at `Q_HIGH` (R116, R120). -/
@[simp] theorem callEngine_req (P : Params ParamSet Quality) (g : Groups) (st : DecoderState) :
    (callEngine P g st).req = { grp := g, st := st, q := P.qHigh } := rfl

/-- The engine call's answer: what the engine returns, less the diagnostic string (R117, R119). -/
@[simp] theorem callEngine_ans (P : Params ParamSet Quality) (g : Groups) (st : DecoderState) :
    (callEngine P g st).ans =
      { pcm := (P.engine g st P.qHigh).pcm, e1 := (P.engine g st P.qHigh).e1,
        e2 := (P.engine g st P.qHigh).e2, st := (P.engine g st P.qHigh).st } := rfl

/-- UNPACK answers one next state (R85, R88). -/
theorem execUnpack_eq_next {frame : AmbeFrame} {s t : State} :
    execUnpack frame s = .next t ↔ t = s.showGroups (unpack frame) := by
  simp [execUnpack, eq_comm]

/-- DECIDE answers one next state (R100). -/
theorem execDecide_eq_next {e1 e2 : Nat} {s t : State} :
    execDecide e1 e2 s = .next t ↔ t = s.showVerdict (verdict e1 e2) := by
  simp [execDecide, eq_comm]

/-- SYNTH answers one next state (R115, R121). -/
theorem execSynth_eq_next {g : Groups} {st : DecoderState} {s t : State} :
    execSynth g st s = .next t ↔ t = s.dropDiag.showEngine (callEngine Config.params g st) := by
  simp [execSynth, eq_comm]

/-- One step: idling, power-on reset, or the meaning of the word presented (R19, R50, R210). -/
theorem step_cases {s t : State} (h : step s = .next t) :
    (s.inputs = [] ∧ t = s.idle) ∨
    (∃ rest, s.inputs = .powerOn :: rest ∧
      t = State.powerOnReset { s with inputs := rest }) ∨
    (∃ w i rest, s.inputs = .word w :: rest ∧ decode w = .ok i ∧
      exec i { s with inputs := rest } = .next t) := by
  unfold step at h
  split at h
  · exact .inl ⟨takeInput_eq_none.mp ‹_›, by simpa [eq_comm] using h⟩
  · obtain ⟨rest, hr, rfl⟩ := takeInput_eq_some.mp ‹_›
    exact .inr (.inl ⟨rest, hr, by simpa [eq_comm] using h⟩)
  · obtain ⟨rest, hr, rfl⟩ := takeInput_eq_some.mp ‹_›
    unfold runWord at h
    split at h
    · exact .inr (.inr ⟨_, _, rest, hr, ‹_›, h⟩)
    · simp at h

/-- No step: the run is where it starts. -/
theorem core_run_zero (s : State) : Sys2Proof.core.run 0 s = Host.Outcome.next s := rfl

/-- A run whose first step answers a next state goes on from there, whatever the machine. -/
theorem run_succ (M : Host.Core) (k : Nat) {s t : M.State} (h : M.step s = .next t) :
    M.run (k + 1) s = M.run k t := by
  simp [Host.Core.run, h]

/-- The same for the block. -/
theorem core_run_succ {s t : State} (k : Nat) (h : step s = .next t) :
    Sys2Proof.core.run (k + 1) s = Sys2Proof.core.run k t :=
  run_succ Sys2Proof.core k h

end Sys2Proof.Machine
end

