-- ==== Sys2Proof/Laws/PerInstr.lean ====
section
/-! SUPPORT. The family `EncodeFormat`: an instruction's word stands on the port of the format that the
opcode table gives its row (R60, R67). -/

namespace Sys2Proof.Laws.EncodeFormat

/-- The word of `i` is of the format of `i`'s row. -/
def Statement (i : Sys2Proof.Instr) : Prop := (Sys2Proof.encode i).format = i.format

theorem create : Statement .create := rfl
theorem reset (h : Bool) : Statement (.reset h) := rfl
theorem decode (h f o : Bool) (frame : AmbeFrame) : Statement (.decode h f o frame) := rfl
theorem destroy (h : Bool) : Statement (.destroy h) := rfl
theorem unpack (frame : AmbeFrame) : Statement (.unpack frame) := rfl
theorem decideErrs (e1 e2 : Nat) : Statement (.decideErrs e1 e2) := rfl
theorem synth (g : Groups) (st : DecoderState) : Statement (.synth g st) := rfl

end Sys2Proof.Laws.EncodeFormat
end

