-- ==== Sys2Proof/Machine/Script.lean ====
section
/-! DEFINITION. The script form in which the spec writes commands down (R77, D24): one command a line,
read from characters, and its 77-bit word as 20 hexadecimal digits. -/

namespace Sys2Proof.Machine

/-- Consecutive characters that spell consecutive hexadecimal values. -/
structure DigitRun where
  /-- The first character. -/
  first : Char
  /-- How many characters the run has. -/
  size : Nat
  /-- What the first character spells. -/
  value : Nat

/-- The digits a command word is written in. -/
def writtenDigits : List DigitRun := [⟨'0', 10, 0⟩, ⟨'A', 6, 10⟩]

/-- The digits a frame may be given in: those written, and the letters in lower case. The spec's own
lines use upper case; reading lower case too is log entry 18. -/
def readDigits : List DigitRun := writtenDigits ++ [⟨'a', 6, 10⟩]

/-- What a character spells in a run, if the run has it. -/
def DigitRun.read (run : DigitRun) (c : Char) : Option Nat :=
  let place := c.toNat - run.first.toNat
  if run.first.toNat ≤ c.toNat && place < run.size then some (run.value + place) else none

/-- The character that spells a value in a run, if the run has one. -/
def DigitRun.write (run : DigitRun) (n : Nat) : Option Char :=
  let place := n - run.value
  if run.value ≤ n && place < run.size then some (Char.ofNat (run.first.toNat + place)) else none

/-- The value of a hexadecimal digit. -/
def hexDigit (c : Char) : Option Nat := readDigits.findSome? (·.read c)

/-- The number that hexadecimal digits spell, the first the most significant. -/
def hexNumber (acc : Nat) : List Char → Option Nat
  | [] => some acc
  | c :: cs =>
    match hexDigit c with
    | none => none
    | some d => hexNumber (16 * acc + d) cs

/-- The bus `F` of `frame=<18 hex digits>` (R65, R77). -/
def scriptFrame (digits : List Char) : Option (BitVec frameBits) :=
  if digits.length = 18 then (hexNumber 0 digits).map (BitVec.ofNat frameBits) else none

/-- A qualifier's value, `0` or `1`. -/
def scriptBit : List Char → Option Bool
  | ['0'] => some false
  | ['1'] => some true
  | _ => none

/-- The words of a line; any number of spaces stands between two. -/
def scriptWords (line : List Char) : List (List Char) :=
  (line.splitOn ' ').filter (! ·.isEmpty)

/-- An optional `key=value` at the head of the words, read by `read`; `dflt` where it is omitted. -/
def scriptOption {α : Type} (key : List Char) (read : List Char → Option α) (dflt : α)
    (words : List (List Char)) : Option (α × List (List Char)) :=
  match words with
  | [] => some (dflt, [])
  | w :: rest =>
    if key.isPrefixOf w then (read (w.drop key.length)).map fun v => (v, rest)
    else some (dflt, w :: rest)

/-- The word of a command that takes `h` alone, from the words after its name (R77). -/
def scriptHandleWord (op : BitVec 2) (words : List (List Char)) : Option (BitVec cmdBits) := do
  let (h, rest) ← scriptOption ['h', '='] scriptBit true words
  if rest = [] then some (cmdWord op h false false 0) else none

/-- The 77-bit word that a line assembles to, its fields as the line gives them. An omitted `h`, `f` or
`o` is 1 for a command that takes it and 0 for one that ignores it, an omitted frame is zeros; anything
left over makes the line no command (R67, R77). -/
def scriptWord (line : List Char) : Option (BitVec cmdBits) :=
  match scriptWords line with
  | [] => none
  | name :: rest =>
    if name = ['C', 'R', 'E', 'A', 'T', 'E'] then
      if rest = [] then some (cmdWord 0b00#2 false false false 0) else none
    else if name = ['R', 'E', 'S', 'E', 'T'] then scriptHandleWord 0b01#2 rest
    else if name = ['D', 'E', 'S', 'T', 'R', 'O', 'Y'] then scriptHandleWord 0b11#2 rest
    else if name = ['D', 'E', 'C', 'O', 'D', 'E'] then do
      let (h, rest) ← scriptOption ['h', '='] scriptBit true rest
      let (f, rest) ← scriptOption ['f', '='] scriptBit true rest
      let (o, rest) ← scriptOption ['o', '='] scriptBit true rest
      let (frame, rest) ← scriptOption ['f', 'r', 'a', 'm', 'e', '='] scriptFrame 0 rest
      if rest = [] then some (cmdWord 0b10#2 h f o frame) else none
    else none

/-- A command word as 20 hexadecimal digits (R77). -/
def wordDigits (w : BitVec cmdBits) : List Char :=
  (List.range 20).filterMap fun i =>
    writtenDigits.findSome? (·.write (w.toNat / 16 ^ (19 - i) % 16))

/-- A script line assembled: the 20 digits of its word. -/
def assembleLine (line : List Char) : Option (List Char) := (scriptWord line).map wordDigits

/-- The command of a line: what the block reads from its word (R69, R77). -/
def scriptInstr (line : List Char) : Option Instr := (scriptWord line).map decodeCmd

end Sys2Proof.Machine
end

