-- ==== Sys2Proof/Tests/Slice0.lean ====
section
/-! SUPPORT. The model's own tests: the WellFormed smoke, words written out from R67 and the table,
the vectors of `95_test_vectors.md` (U, M, L, P, H by their ids), and, for each statement with
hypotheses, a state and operands that meet them. -/

namespace Sys2Proof.Tests

open Sys2Proof Sys2Proof.Machine Sys2Proof.Safety

set_option maxRecDepth 20000

/-! ## Helpers -/

/-- All cells 0. -/
def zeroGroups : Groups := Vector.replicate 4 (Vector.replicate 24 false)
/-- All cells 1, so group 3 is not zero. -/
def oneGroups : Groups := Vector.replicate 4 (Vector.replicate 24 true)
/-- Frame A of `95_test_vectors.md` section 4. -/
def frameA : AmbeFrame := #v[0x01, 0x23, 0x45, 0x67, 0x89, 0xAB, 0x00, 0x00, 0x25]
/-- Frame B of `95_test_vectors.md` section 4. -/
def frameB : AmbeFrame := #v[0x00, 0x00, 0x10, 0x00, 0x10, 0x00, 0x00, 0x00, 0x44]
/-- The frame of vector U6. -/
def frameU6 : AmbeFrame := #v[0x01, 0x23, 0x45, 0x67, 0x89, 0xAB, 0xCD, 0xEF, 0x5A]
/-- The frame of vector U5. -/
def frameU5 : AmbeFrame := #v[0x00, 0x00, 0x01, 0x80, 0x00, 0x00, 0x00, 0x00, 0x00]
/-- The frame of vector U7. -/
def frameU7 : AmbeFrame := #v[0x01, 0x00, 0x00, 0x00, 0x00, 0x00, 0x00, 0x00, 0x00]
/-- A triple of parameter sets that are naturals, as the stub engines take them. -/
def triple (a b c : Nat) : Triple Nat := ⟨a, b, c⟩
/-- A triple of this block's parameter sets. -/
def zeroTriple : DecoderState := ⟨.zeros, .zeros, .zeros⟩
/-- A block right after CREATE. -/
def sReady : State := { State.reset with life := .ready, st := some Config.stateDefault }
/-- A block after some DECODE. -/
def sActive : State := { State.reset with life := .active, st := some zeroTriple }
/-- `s` with words to come. -/
def withWords (s : State) (ws : List PortWord) : State := { s with inputs := ws.map .word }
/-- What a test looks at in an outcome: `life`, the status, and the model's record. -/
def view (r : StepResult) : Option (Life × Option Status × Bool) :=
  match r with
  | .next t => some (t.life, lastStatus t, t.lifecycleFault)
  | _ => none

/-- `STUB_H` of `95_test_vectors.md` section 3. -/
def stubH : Params Nat Unit where
  engine := fun g st _ =>
    { pcm := Vector.ofFn fun n =>
        BitVec.ofNat 16 ((groupWord g 1).toNat + st.cur + n.val)
      e1 := (groupWord g 2).toNat % 16
      e2 := (groupWord g 2).toNat / 16 % 16
      st := ⟨(groupWord g 0).toNat, st.cur, st.prev⟩
      diag := Vector.replicate _ 0 }
  stateDefault := triple 0 0 0
  qHigh := ()

/-- `STUB_54` of `95_test_vectors.md` section 3. -/
def stub54 : Params Nat Unit where
  engine := fun _ st _ =>
    { pcm := Vector.replicate _ 0, e1 := 5, e2 := 4, st := st, diag := Vector.replicate _ 0 }
  stateDefault := triple 0 0 0
  qHigh := ()

/-- `STUB_ZERO` of `95_test_vectors.md` section 3. -/
def stubZero : Params Nat Unit where
  engine := fun _ st _ =>
    { pcm := Vector.replicate _ 0, e1 := 0, e2 := 0, st := st, diag := Vector.replicate _ 0 }
  stateDefault := triple 0 0 0
  qHigh := ()

/-- What a test looks at in a response: status, total, accepted, and two samples as signed numbers. -/
def heard (r : Response) : Status × Option (Nat × Bool × Int × Int) :=
  (r.status, r.data.map fun d =>
    (d.total, d.accepted, sampleValue d.pcm[0], sampleValue d.pcm[159]))

/-! ## WellFormed smoke: an ill-formed term for each check -/

/-- R101: 256 does not fit 8 bits. -/
theorem test_wf_refuses_wide_e1 : ¬ WellFormed (.decideErrs 256 0) := by decide
theorem test_wf_refuses_wide_e2 : ¬ WellFormed (.decideErrs 0 256) := by decide
/-- R86. -/
theorem test_wf_refuses_group3 : ¬ WellFormed (.synth oneGroups zeroTriple) := by decide
theorem test_wf_accepts_group3_zero : WellFormed (.synth zeroGroups zeroTriple) := by decide

/-! ## Decoding of words written out from the spec's encodings -/

/-- `CREATE`, section 2.4; the ignored fields may hold anything (R68). -/
theorem test_decode_create : decode (.cmd 0x00000000000000000000#77) = .ok .create := by decide
theorem test_decode_create_ignored :
    decode (.cmd 0x07FFFFFFFFFFFFFFFFFF#77) = .ok .create := by decide
/-- `RESET` and `RESET h=0`, section 2.4. -/
theorem test_decode_reset : decode (.cmd 0x0C000000000000000000#77) = .ok (.reset true) := by decide
theorem test_decode_reset_h0 :
    decode (.cmd 0x08000000000000000000#77) = .ok (.reset false) := by decide
/-- `DECODE frame=0123456789ABCDEF5A`, section 2.4. -/
theorem test_decode_decode :
    decode (.cmd 0x170123456789ABCDEF5A#77) = .ok (.decode true true true frameU6) := by decide
/-- `DECODE f=0`, `DECODE o=0 frame=…`, `DECODE h=0 frame=…`: one qualifier each, section 2.4. -/
theorem test_decode_decode_f0 :
    decode (.cmd 0x15000000000000000000#77) =
      .ok (.decode true false true (Vector.replicate 9 0)) := by decide
theorem test_decode_decode_o0 :
    decode (.cmd 0x160123456789AB000025#77) = .ok (.decode true true false frameA) := by decide
theorem test_decode_decode_h0 :
    decode (.cmd 0x130123456789AB000025#77) = .ok (.decode false true true frameA) := by decide
/-- `DESTROY` and `DESTROY h=0`, section 2.4. -/
theorem test_decode_destroy :
    decode (.cmd 0x1C000000000000000000#77) = .ok (.destroy true) := by decide
theorem test_decode_destroy_h0 :
    decode (.cmd 0x18000000000000000000#77) = .ok (.destroy false) := by decide
/-- Byte 0 is bits 71:64 (R65). -/
theorem test_decode_unpack :
    decode (.unp 0x010000000000000000#72) = .ok (.unpack frameU7) := by decide
/-- `PPPPPPPPSSSSSSSS`: the primary count is the upper field (the table's row DECIDE). -/
theorem test_decode_decide : decode (.dec 0x0504#16) = .ok (.decideErrs 5 4) := by decide
/-- Group 3 of the word must be zero (the table's row SYNTH). -/
theorem test_decode_synth_group3 :
    decode (.eng 0x000000000000000000000001#96 zeroTriple) = .error .group3NotZero := by decide
theorem test_decode_synth :
    decode (.eng 0x000000000000000000000000#96 zeroTriple) =
      .ok (.synth zeroGroups zeroTriple) := by decide
/-- `G[95 − 24j − p] = g[j][p]`: bit 95 is `g[0][0]` (R66). -/
theorem test_groups_off_the_bus :
    cell (groupsOfBus 0x800000000000000000000000#96) 0 0 = true := by decide
/-- The table's words, by row width. -/
theorem test_table_decode :
    decodeTableWord 80 0x170123456789AB000025 = some (.decode true true true frameA) := by decide
theorem test_table_unpack : decodeTableWord 72 0x010000000000000000 = some (.unpack frameU7) := by
  decide
theorem test_table_decide : decodeTableWord 16 0x0807 = some (.decideErrs 8 7) := by decide
theorem test_table_synth :
    decodeTableWord 96 0 = some (.synth zeroGroups zeroTriple) := by decide
theorem test_table_too_wide : decodeTableWord 80 0x20000000000000000000 = none := by decide
/-- R77: a line assembles to the word of section 2.4. -/
theorem test_script_decode_f0 :
    assembleLine ['D', 'E', 'C', 'O', 'D', 'E', ' ', 'f', '=', '0'] =
      some ['1', '5', '0', '0', '0', '0', '0', '0', '0', '0', '0', '0', '0', '0', '0', '0', '0',
        '0', '0', '0'] := by decide
/-- Hexadecimal digits, the first the most significant (R10, R77). -/
theorem test_script_digits : hexNumber 0 ['5', 'A', 'C', 'f'] = some 0x5ACF := by decide
theorem test_script_frame_needs_18_digits : scriptFrame ['0', '1'] = none := by decide
theorem test_script_create_takes_nothing :
    assembleLine ['C', 'R', 'E', 'A', 'T', 'E', ' ', 'h', '=', '1'] = none := by decide

/-! ## UNPACK, vectors U5, U6, U7 -/

theorem test_unpack_U6 :
    (groupWord (unpack frameU6) 0, groupWord (unpack frameU6) 1, groupWord (unpack frameU6) 2,
      groupWord (unpack frameU6) 3) =
      (0x012345#24, 0x6789AB#24, 0xCDEF5A#24, 0x000000#24) := by decide
theorem test_unpack_U5 : (cell (unpack frameU5) 0 23, cell (unpack frameU5) 1 0,
    onesInGroups (unpack frameU5)) = (true, true, 2) := by decide
theorem test_unpack_U7 : (cell (unpack frameU7) 0 7, onesInGroups (unpack frameU7)) = (true, 1) := by
  decide

/-! ## DECIDE, vectors M4, M8, M13 -/

theorem test_decide_M4 : verdict 3 4 = ⟨true, 7⟩ := by decide
theorem test_decide_M8 : verdict 4 4 = ⟨false, 8⟩ := by decide
/-- The 8-bit ports: the sum needs the ninth bit. -/
theorem test_decide_M13_gate :
    ((adderBits 255#8 1#8).toNat, acceptGate (adderBits 255#8 1#8)) = (256, false) := by decide

/-! ## Commands on the machine: L1, L2, L4, L6, L9, L10, L18, L21 -/

theorem test_create_L1 : view (exec .create State.reset) = some (.ready, some .ok, false) := by decide
theorem test_create_L2 :
    view (exec .create sReady) = some (.ready, some .allocFail, false) := by decide
theorem test_reset_L4 :
    view (exec (.reset true) State.reset) = some (.uninit, some .lifecycle, true) := by decide
theorem test_reset_L6 : view (exec (.reset true) sActive) = some (.ready, some .ok, false) := by decide
theorem test_decode_L9 :
    view (exec (.decode true true true frameA) State.reset) =
      some (.uninit, some .lifecycle, true) := by decide
/-- Arguments are checked before the lifecycle (R187). -/
theorem test_decode_L10 :
    view (exec (.decode false true true frameA) State.reset) =
      some (.uninit, some .invalidArg, false) := by decide
theorem test_destroy_L18 :
    view (exec (.destroy false) sActive) = some (.active, some .ok, false) := by decide
theorem test_destroy_L21 :
    view (exec (.destroy true) State.reset) = some (.uninit, some .lifecycle, true) := by decide

/-! ## The table's words as first instruction after reset -/

theorem test_first_create :
    view (step (State.reset.withFetchWord 80 0)) = some (.ready, some .ok, false) := by decide
theorem test_first_unpack :
    (match step (State.reset.withFetchWord 72 0x010000000000000000) with
      | .next t => t.ports.unp.map fun g => cell g 0 7
      | _ => none) = some true := by decide
theorem test_first_decide :
    (match step (State.reset.withFetchWord 16 0x0504) with
      | .next t => t.ports.dec
      | _ => none) = some ⟨false, 9⟩ := by decide
theorem test_first_synth :
    (match step (State.reset.withFetchWord 96 0) with
      | .next t => (t.life, t.ports.eng.map fun c => c.req.st)
      | _ => (.active, none)) = (.uninit, some zeroTriple) := by decide

/-! ## With the stub engines: P1 steps 2, 3 and 5, and the host's H2 and H3 -/

theorem test_P1_step2 :
    let r := blockStep stubH (.ready (triple 0 0 0)) (.decode true true true frameA)
    (r.1, heard r.2) = (.active (triple 0x012345 0 0), .ok, some (7, true, -30293, -30134)) := by
  decide
theorem test_P1_step3 :
    let r := blockStep stubH (.active (triple 0x012345 0 0)) (.decode true true true frameB)
    (r.1, heard r.2) =
      (.active (triple 0x10 0x012345 0), .ok, some (8, false, 13125, 13284)) := by decide
theorem test_P1_step5 :
    let r := blockStep stubH (.ready (triple 0 0 0)) (.decode true true true frameB)
    (r.1, heard r.2) = (.active (triple 0x10 0 0), .ok, some (8, false, 4096, 4255)) := by decide
theorem test_host_H2 :
    let o := hostMain stubZero .uninit (.decode (some (List.replicate 13 0)) true none)
    (o.exitCode, o.tally.frames, o.tally.muted, o.tally.out.length, o.warning, o.block) =
      (0, 1, 0, 320, true, .uninit) := by decide
theorem test_host_H3 :
    let o := hostMain stub54 .uninit (.decode (some (List.replicate 18 0)) true none)
    (o.exitCode, o.tally.frames, o.tally.muted, o.tally.errors, o.tally.out.length, o.warning) =
      (0, 2, 2, 18, 0, false) := by decide
/-- The output of P4 begins `AB 89 AC 89`: low byte first (R166). -/
theorem test_serialise_low_byte_first :
    (serialise (Vector.ofFn fun n => BitVec.ofNat 16 (0x89AB + n.val))).take 4 =
      [0xAB, 0x89, 0xAC, 0x89] := by decide

/-! ## Witnesses: what meets the hypotheses of each statement that has some -/

/-- A next state of a DECODE that runs the engine, and that it is one. -/
theorem decode_from_ready :
    exec (.decode true true true frameA) sReady =
      .next (decodeFrame frameA Config.stateDefault sReady) := rfl
theorem decode_from_active :
    exec (.decode true true true frameA) sActive =
      .next (decodeFrame frameA zeroTriple sActive) := rfl

theorem wit_DecodeOfEncodeIsTheInstruction :
    WellFormed (.decideErrs 255 255) ∧ WellFormed (.decideErrs 0 0) ∧
      WellFormed (.synth zeroGroups zeroTriple) ∧ WellFormed (.decode true true false frameA) ∧
      WellFormed (.decode true false true .canonical) ∧ WellFormed (.decideErrs 1 0) 1 := by decide
theorem wit_DecodedInstructionIsWellFormed :
    decode (.dec 0xFFFF#16) = .ok (.decideErrs 255 255) := by decide
/-- A word of each kind with every ignored field all ones: CREATE, RESET, DECODE with `f = 1`, DECODE
with `f = 0`, DESTROY. -/
theorem wit_CommandWordReencodesCanonically :
    decode (.cmd 0x07FFFFFFFFFFFFFFFFFF#77) = .ok .create ∧
    decode (.cmd 0x0FFFFFFFFFFFFFFFFFFF#77) = .ok (.reset true) ∧
    decode (.cmd 0x170123456789AB000025#77) = .ok (.decode true true true frameA) ∧
    decode (.cmd 0x15FFFFFFFFFFFFFFFFFF#77) = .ok (.decode true false true .canonical) ∧
    decode (.cmd 0x1BFFFFFFFFFFFFFFFFFF#77) = .ok (.destroy false) := by decide
/-- The ignored frame of a DECODE with `f = 0` is written back as 0 (R68). -/
theorem test_reencode_decode_f0 :
    encode (decodeCmd 0x15FFFFFFFFFFFFFFFFFF#77) = .cmd 0x15000000000000000000#77 := by decide
theorem wit_OpcodeMapByMatchAndMask :
    0x07FFFFFFFFFFFFFFFFFF#77 &&& 0x18000000000000000000#77 = 0x00000000000000000000#77 ∧
    0x0FFFFFFFFFFFFFFFFFFF#77 &&& 0x18000000000000000000#77 = 0x08000000000000000000#77 ∧
    0x10000000000000000000#77 &&& 0x18000000000000000000#77 = 0x10000000000000000000#77 ∧
    0x1FFFFFFFFFFFFFFFFFFF#77 &&& 0x18000000000000000000#77 = 0x18000000000000000000#77 := by
  decide
theorem wit_OpcodeMapByMatchAndMask_format :
    decode (.cmd 0x07FFFFFFFFFFFFFFFFFF#77) = .ok .create := by decide
theorem wit_EngineWordWithGroup3IsRefused :
    (withWords State.reset [.eng 1 zeroTriple]).inputs = .word (.eng 1 zeroTriple) :: [] ∧
      (1#96).extractLsb' 0 24 ≠ 0 := by decide
theorem wit_UnpackIsABijection :
    group3Zero zeroGroups = true ∧ unpack frameA = unpack frameA := ⟨by decide, rfl⟩
theorem wit_VerdictAcceptsUpToSeven : 7 + 0 = 7 ∧ 4 + 4 = 8 := by decide
theorem wit_AdderNeverWrapsAndGateCompares : 2 < 3 := by decide
theorem wit_VerdictIsSymmetricAndAntitone :
    3 ≤ 3 ∧ 0 ≤ 4 ∧ (verdict 3 4).accepted = true := by decide
theorem wit_CreateResult :
    (0x07FFFFFFFFFFFFFFFFFF#77).extractLsb' 75 2 = 0b00#2 ∧ State.reset.life = .uninit ∧
      sReady.life ≠ .uninit ∧ sActive.life ≠ .uninit := by decide
theorem wit_ResetResult :
    (0x0C000000000000000000#77).extractLsb' 75 2 = 0b01#2 ∧ State.reset.life = .uninit ∧
      sReady.life ≠ .uninit ∧ sActive.life ≠ .uninit := by decide
theorem wit_DecodeResult :
    (0x15000000000000000000#77).extractLsb' 75 2 = 0b10#2 ∧
      (true = false ∨ false = false ∨ true = false) ∧ State.reset.life = .uninit ∧
      (sReady.life ≠ .uninit ∧ sReady.st = some Config.stateDefault) ∧
      (sActive.life ≠ .uninit ∧ sActive.st = some zeroTriple) :=
  ⟨by decide, by decide, rfl, ⟨by decide, rfl⟩, ⟨by decide, rfl⟩⟩
theorem wit_DestroyResult :
    (0x18000000000000000000#77).extractLsb' 75 2 = 0b11#2 ∧ State.reset.life = .uninit ∧
      sReady.life ≠ .uninit ∧ sActive.life ≠ .uninit := by decide
theorem wit_DecodeOfNoStateFaults :
    ({ State.reset with life := .ready } : State).life ≠ .uninit ∧
      ({ State.reset with life := .ready } : State).st = none := by decide
theorem wit_LifecycleRecordIsSticky :
    (∃ t, exec Command.create.toInstr State.reset = .next t) ∧
    (∃ t, step { State.reset with lifecycleFault := true } = .next t) ∧
      ({ State.reset with lifecycleFault := true } : State).lifecycleFault = true :=
  ⟨⟨_, rfl⟩, ⟨_, rfl⟩, rfl⟩
theorem wit_FailureHasNoEffect :
    ∃ t r, exec Command.create.toInstr sReady = .next t ∧ t.ports.rsp = some r ∧ r.status ≠ .ok :=
  ⟨_, ⟨.allocFail, none⟩, rfl, rfl, by decide⟩
theorem wit_NextCommandAsIfFailureNotIssued :
    ∃ t r, exec (Command.reset true).toInstr State.reset = .next t ∧ t.ports.rsp = some r ∧
      r.status ≠ .ok :=
  ⟨_, ⟨.lifecycle, none⟩, rfl, rfl, by decide⟩
theorem wit_DataFieldsOnlyOfAnOkDecode :
    ∃ t, exec (Command.decode true true true frameA).toInstr sReady = .next t :=
  ⟨_, decode_from_ready⟩
/-- `ERR_W = 8`, where the packed form has 2572 wires: the widest total that fits, the first that does
not, and a response without data. -/
theorem wit_ResponsePacking :
    (∃ v, responseBus 8 0 ⟨.ok, some ⟨Vector.replicate 160 0, 511, false⟩⟩ = some v) ∧ 511 < 2 ^ 9 ∧
      (⟨.ok, some ⟨Vector.replicate 160 0, 512, false⟩⟩ : Response).data =
        some ⟨Vector.replicate 160 0, 512, false⟩ ∧ 2 ^ 9 ≤ 512 ∧
      (⟨.lifecycle, none⟩ : Response).data = none ∧ 255 < 2 ^ 8 :=
  ⟨⟨_, rfl⟩, by decide, rfl, by decide, rfl, by decide⟩
theorem wit_PcmIsPassedThrough :
    ∃ t r d, exec (.decode true true true frameA) sReady = .next t ∧ t.ports.rsp = some r ∧
      r.data = some d :=
  ⟨_, _, _, decode_from_ready, rfl, rfl⟩
theorem wit_OnlyAnOkDecodeWritesPcm :
    ∃ t, step (withWords sReady [.cmd 0x170123456789AB000025#77]) = .next t ∧
      t.pcmBuf ≠ (withWords sReady [.cmd 0x170123456789AB000025#77]).pcmBuf := by
  have h : decode (.cmd 0x170123456789AB000025#77) = .ok (.decode true true true frameA) := by decide
  refine ⟨decodeFrame frameA Config.stateDefault sReady, ?_, by simp [decodeFrame, withWords, sReady]⟩
  simp only [step, State.takeInput, withWords, List.map, runWord, h]
  exact decode_from_ready
theorem wit_MutedFrameIsASuccess :
    (BlockState.ready (triple 0 0 0)).st = some (triple 0 0 0) ∧
      7 < (stub54.engine (unpack frameA) (triple 0 0 0) stub54.qHigh).e1 +
        (stub54.engine (unpack frameA) (triple 0 0 0) stub54.qHigh).e2 := by decide
theorem wit_EngineCalledOnceByAPassingDecode :
    ∃ t e, exec (Command.decode true true true frameA).toInstr sActive = .next t ∧
      t.ports.eng = some e :=
  ⟨_, _, decode_from_active, rfl⟩
theorem wit_TransitionTable :
    (true = false ∨ false = false ∨ true = false) ∧
      BlockState.active (triple 0 0 0) = .active (triple 0 0 0) := ⟨by decide, rfl⟩
theorem wit_FreshStart :
    ∃ a b, State.reset.life = .uninit ∧ exec .create State.reset = .next a ∧
      exec (.reset true) a = .next b := ⟨_, _, rfl, rfl, rfl⟩
theorem wit_ContinuityOfTheState :
    (BlockState.active (triple 1 2 3)).st = some (triple 1 2 3) := rfl
theorem wit_OnlyTheseStepsWriteRegisters :
    ∃ t, step (withWords State.reset [.cmd 0x00000000000000000000#77]) = .next t ∧
      (t.life ≠ State.reset.life ∨ t.st ≠ State.reset.st) := ⟨_, rfl, .inl (by decide)⟩
theorem wit_StepRunsTheDecodedInstruction :
    (withWords State.reset [.cmd 0x0C000000000000000000#77]).inputs =
        .word (.cmd 0x0C000000000000000000#77) :: [] ∧
      decode (.cmd 0x0C000000000000000000#77) = .ok (.reset true) := by decide
theorem wit_IdleStepHoldsTheRegisters : sActive.inputs = [] := rfl
theorem wit_PowerOnResetStep :
    ({ sActive with inputs := [.powerOn] } : State).inputs = .powerOn :: [] := rfl
theorem inv_sReady : Inv sReady := ⟨rfl, rfl⟩
theorem inv_sActive : Inv sActive := ⟨rfl, rfl⟩
theorem wit_EveryStepKeepsTheInvariant : ∃ t, Inv sReady ∧ step sReady = .next t :=
  ⟨_, inv_sReady, rfl⟩
theorem wit_NothingStopsTheBlock : Inv State.reset ∧ Inv sActive := ⟨⟨rfl, rfl⟩, inv_sActive⟩
theorem wit_CommandsAreTheStepFunction :
    State.reset.block = some .uninit ∧ sReady.block = some (.ready Config.stateDefault) ∧
      sActive.block = some (.active zeroTriple) := ⟨rfl, rfl, rfl⟩
theorem wit_RunIsTheFoldOfTheStepFunction :
    sActive.block = some (.active zeroTriple) ∧
      ({ sActive with inputs := [presented (.reset true), .powerOn] } : State).inputs =
        [Command.reset true].map presented ++ [.powerOn] := ⟨rfl, rfl⟩
theorem wit_ContractKeepsEveryCommandOk :
    State.reset.block = some .uninit ∧
      ({ State.reset with inputs := [Command.create, .destroy true].map presented } : State).inputs =
        [Command.create, .destroy true].map presented ++ [] ∧
      obeysContract (live State.reset) [Command.create, .destroy true] = true ∧ 2 ≤ 2 :=
  ⟨rfl, rfl, rfl, by decide⟩
theorem wit_InstancesAreIndependent : (systemReset Nat 2)[1]? = some .uninit := rfl
theorem wit_HostRecordsAreTheFile :
    (hostRecords (List.replicate 13 0))[0]? = some (Vector.replicate 9 0) := by decide
/-- `STUB_ZERO` accepts both frames of an 18-byte file: one write is too few, two are enough. -/
theorem wit_HostExitCodes :
    BlockState.ready (triple 0 0 0) ≠ .uninit ∧
      acceptedFrames stubZero (List.replicate 18 0) = 2 ∧ 1 < 2 := by decide
theorem wit_HostGivesUp :
    let o := hostMain stubZero .uninit (.decode (some (List.replicate 18 0)) true (some 1))
    (o.exitCode, o.failure, o.tally.frames, o.tally.out.length, o.commands.length) =
      (1, some .shortWrite, 2, 320, 3) := by decide

end Sys2Proof.Tests
end

