-- ==== Sys2Proof/Proofs/Encoding.lean ====
section
/-! PROOFS. The opcode map of R69, the frame bus of R65, the layout of R62 and the status codes of R71.
The first part says once how the decoder and the bus behave; the obligations are short uses of it. -/

namespace Sys2Proof.Proofs.Encoding

open Sys2Proof.Machine

/-! ## The command decoder: match and mask (R69) -/

/-- R69's mask hides no bit of the field `op`. -/
theorem cmdOp_and_mask (w : BitVec 77) : cmdOp (w &&& 0x18000000000000000000#77) = cmdOp w := by
  have mask_op : BitVec.extractLsb' 75 2 0x18000000000000000000#77 = BitVec.allOnes 2 := by decide
  rw [cmdOp, cmdOp, BitVec.extractLsb'_and, mask_op, BitVec.and_allOnes]

/-- A word that matches `m` under R69's mask has the field `op` of `m`. -/
theorem cmdOp_eq_of_match {w m : BitVec 77} (h : w &&& 0x18000000000000000000#77 = m) :
    cmdOp w = cmdOp m := by
  rw [← h, cmdOp_and_mask]

theorem decodeCmd_of_op_00 {w : BitVec 77} (h : cmdOp w = 0b00#2) : decodeCmd w = .create := by
  simp [decodeCmd, h]

theorem decodeCmd_of_op_01 {w : BitVec 77} (h : cmdOp w = 0b01#2) :
    decodeCmd w = .reset (cmdH w) := by
  simp [decodeCmd, h]

theorem decodeCmd_of_op_10 {w : BitVec 77} (h : cmdOp w = 0b10#2) :
    decodeCmd w = .decode (cmdH w) (cmdF w) (cmdO w) (cmdFrame w) := by
  simp [decodeCmd, h]

theorem decodeCmd_of_op_11 {w : BitVec 77} (h : cmdOp w = 0b11#2) :
    decodeCmd w = .destroy (cmdH w) := by
  simp [decodeCmd, h]

/-- Every value of `op` names one of the four commands (R74), and so no other unit. -/
theorem decodeCmd_format (w : BitVec 77) : (decodeCmd w).format = .cmd77 := by
  unfold decodeCmd
  split_ifs <;> rfl

/-! ## Bytes, bits and the frame bus (R11, R45, R65) -/

/-- Byte `b`, most significant bit first, is `e(8b)` to `e(8b + 7)` (R45). -/
theorem extract_byte_bit (frame : AmbeFrame) {b i : Nat} (hb : b < 9) (hi : i < 8) :
    extract frame (8 * b + (7 - i)) = frame[b].getLsbD i := by
  have byte_eq : (8 * b + (7 - i)) / 8 = b := by omega
  have bit_eq : 7 - (8 * b + (7 - i)) % 8 = i := by omega
  rw [extract_of_lt frame _ (by omega)]
  simp only [byte_eq, bit_eq]

/-- `e(k)` is on wire `71 − k` (R65). -/
theorem frameBus_wire (frame : AmbeFrame) {k : Nat} (hk : k < 72) :
    (frameBus frame).getLsbD (71 - k) = extract frame k := by
  rw [frameBus_getLsbD, if_pos (by omega), Nat.sub_sub_self (by omega)]

/-- Byte `b` is the slice `71 − 8b : 64 − 8b` of the bus (R65). -/
theorem frameBus_slice (frame : AmbeFrame) {b : Nat} (hb : b < 9) :
    (frameBus frame).extractLsb' (64 - 8 * b) 8 = frame[b] := by
  apply BitVec.eq_of_getLsbD_eq
  intro i hi
  have wire_eq : 64 - 8 * b + i = 71 - (8 * b + (7 - i)) := by omega
  rw [BitVec.getLsbD_extractLsb', wire_eq, frameBus_wire frame (by omega),
    extract_byte_bit frame hb hi, decide_eq_true hi, Bool.true_and]

/-- A 72-bit bus is the concatenation of its nine byte slices. -/
theorem slices_append (F : BitVec 72) :
    F.extractLsb' 64 8 ++ F.extractLsb' 56 8 ++ F.extractLsb' 48 8 ++ F.extractLsb' 40 8 ++
      F.extractLsb' 32 8 ++ F.extractLsb' 24 8 ++ F.extractLsb' 16 8 ++ F.extractLsb' 8 8 ++
      F.extractLsb' 0 8 = F := by
  simp (disch := decide) only [BitVec.extractLsb'_append_extractLsb'_eq_extractLsb']
  exact BitVec.extractLsb'_eq_self

/-- The bus is the nine bytes in order (R65). -/
theorem frameBus_eq_append (frame : AmbeFrame) :
    frameBus frame = frame[0] ++ frame[1] ++ frame[2] ++ frame[3] ++ frame[4] ++ frame[5] ++
      frame[6] ++ frame[7] ++ frame[8] := by
  have slice := fun b (hb : b < 9) => frameBus_slice frame hb
  rw [← slice 0, ← slice 1, ← slice 2, ← slice 3, ← slice 4, ← slice 5, ← slice 6, ← slice 7,
    ← slice 8]
  exact (slices_append (frameBus frame)).symm

/-- Bytes put on the bus are taken off it again (R65). -/
theorem frameOfBus_frameBus (frame : AmbeFrame) : frameOfBus (frameBus frame) = frame := by
  apply Vector.ext
  intro b hb
  rw [frameOfBus_getElem, frameBus_slice frame hb]

/-- A bus taken apart into bytes is put together again (R65). -/
theorem frameBus_frameOfBus (F : BitVec 72) : frameBus (frameOfBus F) = F := by
  rw [frameBus_eq_append]
  simp only [frameOfBus_getElem]
  exact slices_append F

/-! ## The obligations -/

/-- Settles O4: the mask keeps exactly the field `op`, on which the decoder branches. -/
theorem opcodeMapByMatchAndMask : Obligations.OpcodeMapByMatchAndMask := by
  intro w
  refine ⟨fun h => ?create, fun h => ?reset, fun h => ?decode, fun h => ?destroy,
    fun i h => ?format, Laws.EncodeFormat.unpack, Laws.EncodeFormat.decideErrs⟩
  case create => exact congrArg Except.ok (decodeCmd_of_op_00 (cmdOp_eq_of_match h))
  case reset => exact congrArg Except.ok (decodeCmd_of_op_01 (cmdOp_eq_of_match h))
  case decode =>
    exact ⟨cmdFrame w, congrArg Except.ok (decodeCmd_of_op_10 (cmdOp_eq_of_match h)),
      cmdFrame_present⟩
  case destroy => exact congrArg Except.ok (decodeCmd_of_op_11 (cmdOp_eq_of_match h))
  case format =>
    obtain rfl : decodeCmd w = i := Except.ok.inj h
    exact decodeCmd_format w

/-- Settles O6: `e(k)` on wire `71 − k` gives each byte its slice, and a bus is its nine slices. -/
theorem frameBusCarriesTheBytesInOrder : Obligations.FrameBusCarriesTheBytesInOrder := by
  refine ⟨fun frame b i => ?wire, frameBus_eq_append, fun frame b => frameBus_slice frame b.isLt,
    frameOfBus_frameBus, frameBus_frameOfBus⟩
  rw [frameBus_wire frame (by omega)]
  exact extract_byte_bit frame b.isLt i.isLt

/-- Settles O8: each cell by `unpack_getElem`, the order of `e` by `extract_byte_bit`. -/
theorem unpackFollowsTheExtractionOrder : Obligations.UnpackFollowsTheExtractionOrder := by
  refine ⟨fun frame p => ?cells, fun frame b i => extract_byte_bit frame b.isLt i.isLt⟩
  have unpacked := fun j (hj : j < nGroups) => unpack_getElem frame j p.val hj p.isLt
  exact ⟨by simpa using unpacked 0 (by decide), unpacked 1 (by decide), unpacked 2 (by decide),
    unpacked 3 (by decide)⟩

/-- Settles O27: the code of each status, and for each of the four codes the status that has it. -/
theorem statusCodesOfTheSpec : Obligations.StatusCodesOfTheSpec := by
  refine ⟨rfl, rfl, rfl, rfl, fun c => ?_⟩
  match c with
  | 0b00#2 => exact ⟨.ok, rfl⟩
  | 0b01#2 => exact ⟨.invalidArg, rfl⟩
  | 0b10#2 => exact ⟨.allocFail, rfl⟩
  | 0b11#2 => exact ⟨.lifecycle, rfl⟩

end Sys2Proof.Proofs.Encoding
end

