-- ==== Sys2Proof/Proofs/Unpack.lean ====
section
/-! PROOFS. The loop of R85 against the wiring of R62. Both of its loops are runs of cell writes that
reach a cell at most once, so one lemma about such runs says what each of them leaves in a cell. -/

namespace Sys2Proof.Proofs.Unpack

open Sys2Proof.Machine

/-! ## Runs of cell writes (R15, R85) -/

/-- If among the first `n` writes of a run only the write number `slot` addresses the cell `(j, p)`,
then after them the cell holds that write's bit if it has been done, and else what it held before. -/
theorem foldl_writeCell_getElem (row col : Nat → Nat) (bit : Nat → Bool) (g : Groups) {j p : Nat}
    (hj : j < 4) (hp : p < 24) (slot : Nat) (n : Nat)
    (only_slot : ∀ k < n, (row k = j ∧ col k = p ↔ k = slot)) :
    ((List.range n).foldl (fun acc k => writeCell acc (row k) (col k) (bit k)) g)[j][p] =
      if slot < n then bit slot else g[j][p] := by
  induction n with
  | zero => simp
  | succ n ih =>
    have before_last := ih fun k hk => only_slot k (by omega)
    rw [List.range_succ, List.foldl_append, List.foldl_cons, List.foldl_nil, writeCell_getElem,
      before_last]
    by_cases last : n = slot
    · rw [if_pos ((only_slot n (by omega)).mpr last), if_pos (by omega), last]
    · rw [if_neg (mt (only_slot n (by omega)).mp last)]
      exact if_congr (by omega) rfl rfl

/-- The first loop of R85 writes the cell `(j, p)` of a data group once, in pass `24j + p`, and leaves
group 3 as it was. -/
theorem unpackDataBits_getElem (frame : AmbeFrame) (g : Groups) {j p : Nat} (hj : j < 4)
    (hp : p < 24) :
    (unpackDataBits frame g)[j][p] = if j < 3 then extract frame (24 * j + p) else g[j][p] := by
  have loop := foldl_writeCell_getElem (· / 24) (· % 24) (extract frame) g hj hp
    (24 * j + p) 72 (by omega)
  exact loop.trans (if_congr (by omega) rfl rfl)

/-- The second loop of R85 clears group 3. -/
theorem zeroFillGroup3_getElem_group3 (g : Groups) {p : Nat} (hp : p < 24) :
    (zeroFillGroup3 g)[3][p] = false :=
  (foldl_writeCell_getElem (fun _ => 3) id (fun _ => false) g (by decide) hp p 24
    (by simp)).trans (if_pos hp)

/-- The second loop of R85 leaves the data groups: none of its 24 passes addresses them, which the run
lemma is told by a `slot` past the last pass. -/
theorem zeroFillGroup3_getElem_data (g : Groups) {j p : Nat} (hj : j < 4) (data : j < 3)
    (hp : p < 24) :
    (zeroFillGroup3 g)[j][p] = g[j][p] :=
  (foldl_writeCell_getElem (fun _ => 3) id (fun _ => false) g hj hp 24 24
    (by omega)).trans (if_neg (by omega))

/-! ## The loop and the wiring (R85, R86) -/

/-- The pseudocode of R85 leaves in every cell what UNPACK wires to it, whatever stood there. -/
theorem unpackLoop_eq_unpack (frame : AmbeFrame) (before : Groups) :
    unpackLoop frame before = unpack frame := by
  refine groups_ext fun j p (hj : j < 4) (hp : p < 24) => ?_
  rw [unpackLoop, unpack_getElem frame j p hj hp]
  by_cases data : j < 3
  · rw [zeroFillGroup3_getElem_data _ hj data hp, unpackDataBits_getElem frame before hj hp,
      if_pos data, if_pos data]
  · obtain rfl : j = 3 := by omega
    rw [zeroFillGroup3_getElem_group3 _ hp, if_neg data]

/-- Settles O9: the two loops cell by cell give the wiring; the zero of group 3 is the second loop's. -/
theorem unpackLoopIsTheWiring : Obligations.UnpackLoopIsTheWiring := fun frame before =>
  ⟨unpackLoop_eq_unpack frame before, fun p => zeroFillGroup3_getElem_group3 _ p.isLt⟩

end Sys2Proof.Proofs.Unpack
end

section
/-! PROOFS. The verdict of DECIDE (R100 to R103): what its two ports show, and where the comparator's
boundary lies. -/

namespace Sys2Proof.Proofs.Muting

open Sys2Proof.Machine

/-! ## The adder and the comparator (R101 to R103) -/

/-- The adder on naturals is exact (R101). -/
@[simp] theorem verdict_total (e1 e2 : Nat) : (verdict e1 e2).total = e1 + e2 := rfl

/-- The verdict accepts exactly the sums up to the threshold 7 (R102, R103). -/
@[simp] theorem verdict_accepted_iff (e1 e2 : Nat) :
    (verdict e1 e2).accepted = true ↔ e1 + e2 ≤ 7 :=
  acceptsTotal_eq_true

/-- The verdict rejects exactly the sums above the threshold (R102). -/
theorem verdict_accepted_eq_false_iff (e1 e2 : Nat) :
    (verdict e1 e2).accepted = false ↔ 7 < e1 + e2 := by
  rw [← Bool.not_eq_true, verdict_accepted_iff, Nat.not_le]

/-! ## The obligations -/

/-- Settles O14: the comparator's equivalence, read at the last accepted sum and at the first rejected
one. -/
theorem verdictAcceptsUpToSeven : Obligations.VerdictAcceptsUpToSeven := by
  refine fun e1 e2 => ⟨verdict_total e1 e2, verdict_accepted_iff e1 e2, fun seven => ?_,
    fun eight => ?_⟩
  · exact (verdict_accepted_iff e1 e2).mpr seven.le
  · exact (verdict_accepted_eq_false_iff e1 e2).mpr (by omega)

end Sys2Proof.Proofs.Muting
end

section
/-! PROOFS. The four Decoder commands (R131 to R134), the transition table (R135) and the fresh start
(R137). First what a failure answers and what each command answers in each case, one equation a case;
then the same for the step function of R136; the obligations are read off them. -/

namespace Sys2Proof.Proofs.DecoderOps

open Sys2Proof.Machine Sys2Proof.Proofs.Encoding

/-! ## Failures (R130, R186) -/

/-- The model's record is of `LIFECYCLE` alone (log entry 1). -/
theorem recordFailure_of_ne {f : Status} (not_lifecycle : f ≠ .lifecycle) (s : State) :
    s.recordFailure f = s := by
  simp [State.recordFailure, not_lifecycle]

/-- A failure other than `LIFECYCLE` answers its status and changes nothing (R186). -/
theorem raise_of_ne {f : Status} (not_lifecycle : f ≠ .lifecycle) (s : State) :
    raise f s = .next (s.respondStatus f) := by
  rw [raise, recordFailure_of_ne not_lifecycle]

/-- `LIFECYCLE` answers its status and changes nothing but the model's record (R186, log entry 1). -/
theorem raise_lifecycle (s : State) :
    raise .lifecycle s = .next (State.respondStatus .lifecycle { s with lifecycleFault := true }) := by
  simp [raise, State.recordFailure]

/-! ## What CREATE, and RESET of a live decoder, leave (R131, R132) -/

/-- The registers `(READY, STATE_DEFAULT)` and the response `OK`, the rest as in `s`. -/
def freshState (s : State) : State := (s.initDecoder Config.params).respondStatus .ok

@[simp] theorem freshState_life (s : State) : (freshState s).life = .ready := rfl

@[simp] theorem freshState_st (s : State) : (freshState s).st = some Config.stateDefault := rfl

/-- A fresh decoder is at its default values already. -/
@[simp] theorem freshState_freshState (s : State) : freshState (freshState s) = freshState s := rfl

theorem freshState_live (s : State) : (freshState s).life ≠ .uninit := by simp

/-! ## The commands, one equation a case (R131 to R134) -/

theorem execCreate_uninit {s : State} (uninit : s.life = .uninit) :
    execCreate s = .next (freshState s) :=
  if_neg (not_not.mpr uninit)

theorem execCreate_live {s : State} (live : s.life ≠ .uninit) :
    execCreate s = .next (s.respondStatus .allocFail) :=
  (if_pos live).trans (raise_of_ne (by decide) s)

theorem execReset_noHandle (s : State) : execReset false s = .next (s.respondStatus .invalidArg) :=
  raise_of_ne (by decide) s

theorem execReset_uninit {s : State} (uninit : s.life = .uninit) :
    execReset true s =
      .next (State.respondStatus .lifecycle { s with lifecycleFault := true }) :=
  (if_pos uninit).trans (raise_lifecycle s)

theorem execReset_live {s : State} (live : s.life ≠ .uninit) :
    execReset true s = .next (freshState s) :=
  if_neg live

/-- DECODE with every reference present, on a live decoder that holds a state, completes. -/
theorem execDecode_live {s : State} {st : DecoderState} (live : s.life ≠ .uninit)
    (holds : s.st = some st) (frame : AmbeFrame) :
    execDecode true true true frame s = .next (decodeFrame frame st s) := by
  have present : decodeArgsPresent true true true = true :=
    decodeArgsPresent_eq_true.mpr ⟨rfl, rfl, rfl⟩
  simp [execDecode, present, live, holds]

theorem execDestroy_noHandle (s : State) : execDestroy false s = .next (s.respondStatus .ok) := rfl

theorem execDestroy_uninit {s : State} (uninit : s.life = .uninit) :
    execDestroy true s =
      .next (State.respondStatus .lifecycle { s with lifecycleFault := true }) :=
  (if_pos uninit).trans (raise_lifecycle s)

theorem execDestroy_live {s : State} (live : s.life ≠ .uninit) :
    execDestroy true s = .next (s.releaseDecoder.respondStatus .ok) :=
  if_neg live

/-! ## The step function of R136 on a live decoder, READY and ACTIVE alike -/

section blockStep

variable {PS Q : Type} (P : Params PS Q) {b : BlockState PS} {st : Triple PS}

/-- A pair `(life, st)` is live exactly when it holds a triple (R23). -/
theorem blockState_st_eq_some : b.st = some st ↔ b = .ready st ∨ b = .active st := by
  cases b <;> simp [BlockState.st]

theorem blockStep_create_live (live : b.st = some st) :
    blockStep P b .create = (b, ⟨.allocFail, none⟩) := by
  obtain rfl | rfl := blockState_st_eq_some.mp live <;> rfl

theorem blockStep_reset_live (live : b.st = some st) :
    blockStep P b (.reset true) = (.ready P.stateDefault, ⟨.ok, none⟩) := by
  obtain rfl | rfl := blockState_st_eq_some.mp live <;> rfl

theorem blockStep_decode_live (live : b.st = some st) (frame : AmbeFrame) :
    blockStep P b (.decode true true true frame) = blockDecode P frame st := by
  obtain rfl | rfl := blockState_st_eq_some.mp live <;> rfl

theorem blockStep_destroy_live (live : b.st = some st) :
    blockStep P b (.destroy true) = (.uninit, ⟨.ok, none⟩) := by
  obtain rfl | rfl := blockState_st_eq_some.mp live <;> rfl

/-- A missing reference ends DECODE before `life` is looked at (R187). -/
theorem blockStep_decode_missing (b : BlockState PS) {h f o : Bool} (frame : AmbeFrame)
    (missing : h = false ∨ f = false ∨ o = false) :
    blockStep P b (.decode h f o frame) = (b, ⟨.invalidArg, none⟩) :=
  if_pos missing

end blockStep

/-! ## The obligations -/

/-- Settles O21: the decoder on `op = 00`, and the two cases of `execCreate`. -/
theorem createResult : Obligations.CreateResult :=
  ⟨fun _ op => congrArg Except.ok (decodeCmd_of_op_00 op),
    fun _ uninit => execCreate_uninit uninit,
    fun _ live => execCreate_live live⟩

/-- Settles O22: the decoder on `op = 01`, and the three cases of `execReset`. -/
theorem resetResult : Obligations.ResetResult :=
  ⟨fun _ op => congrArg Except.ok (decodeCmd_of_op_01 op),
    fun s => execReset_noHandle s,
    fun _ uninit => ⟨true, execReset_uninit uninit⟩,
    fun _ live => execReset_live live⟩

/-- Settles O24: the decoder on `op = 11`, and the three cases of `execDestroy`. -/
theorem destroyResult : Obligations.DestroyResult :=
  ⟨fun _ op => congrArg Except.ok (decodeCmd_of_op_11 op),
    fun s => execDestroy_noHandle s,
    fun _ uninit => ⟨true, execDestroy_uninit uninit⟩,
    fun _ live => execDestroy_live live⟩

/-- Settles O37: in UNINIT, and without a handle, the step function computes to the cell; the cells of
READY and ACTIVE are those of a live decoder. -/
theorem transitionTable : Obligations.TransitionTable := by
  intro PS Q P st
  have ready : (BlockState.ready st).st = some st := rfl
  have active : (BlockState.active st).st = some st := rfl
  refine ⟨rfl, blockStep_create_live P ready, blockStep_create_live P active,
    fun _ => rfl, rfl, blockStep_reset_live P ready, blockStep_reset_live P active,
    fun b _ _ _ frame missing => blockStep_decode_missing P b frame missing, fun _ => rfl,
    fun frame b live => ⟨_, blockStep_decode_live P (blockState_st_eq_some.mpr live) frame⟩,
    fun _ => rfl, rfl, blockStep_destroy_live P ready, blockStep_destroy_live P active, rfl⟩

/-- Settles O38: CREATE leaves a fresh state, and RESET of a fresh state is that state again, so DECODE
cannot tell them apart. -/
theorem freshStart : Obligations.FreshStart := by
  intro s a b uninit created reset
  obtain rfl : freshState s = a :=
    Host.Outcome.next.inj ((execCreate_uninit uninit).symm.trans created)
  obtain rfl : freshState (freshState s) = b :=
    Host.Outcome.next.inj ((execReset_live (freshState_live s)).symm.trans reset)
  refine ⟨⟨freshState_life s, freshState_st s⟩,
    ⟨freshState_life (freshState s), freshState_st (freshState s)⟩, fun h f o frame => ?same,
    fun frame => ⟨_, execDecode_live (freshState_live s) (freshState_st s) frame⟩⟩
  case same => rw [freshState_freshState]

end Sys2Proof.Proofs.DecoderOps
end

section
/-! PROOFS. The reference host's two file formats (R160, R166): how it cuts a file into records, by an
induction over the file record by record, and how it writes samples. -/

namespace Sys2Proof.Proofs.HostFiles

open Sys2Proof.Machine

/-! ## A file as records (R160, R162) -/

/-- A record is nine bytes (R160). -/
theorem record_length (frame : AmbeFrame) : frame.toList.length = 9 := Vector.length_toList

/-- A file shorter than a record holds none. -/
theorem hostRecords_of_short {file : List Byte} (short : file.length < 9) : hostRecords file = [] := by
  unfold hostRecords
  split
  next => simp only [List.length_cons] at short; omega
  next => rfl

/-- Nine bytes at the front of a file are its first record. -/
theorem hostRecords_append (frame : AmbeFrame) (rest : List Byte) :
    hostRecords (frame.toList ++ rest) = frame :: hostRecords rest := by
  match frame with
  | ⟨⟨[_, _, _, _, _, _, _, _, _]⟩, _⟩ => rfl

/-- A file that is not shorter than a record is one followed by the rest. -/
theorem exists_record_of_long {file : List Byte} (long : 9 ≤ file.length) :
    ∃ (frame : AmbeFrame) (rest : List Byte), file = frame.toList ++ rest :=
  ⟨⟨(file.take 9).toArray, by simpa using long⟩, file.drop 9, by simp⟩

/-- Induction over a file record by record: what holds of a trailing partial record, and of a record
followed by a file of which it holds, holds of every file. -/
theorem record_induction {motive : List Byte → Prop}
    (short : ∀ file : List Byte, file.length < 9 → motive file)
    (record : ∀ (frame : AmbeFrame) (rest : List Byte), motive rest → motive (frame.toList ++ rest))
    (file : List Byte) : motive file := by
  induction hn : file.length using Nat.strong_induction_on generalizing file with
  | _ n ih =>
    obtain hlt | long := Nat.lt_or_ge file.length 9
    · exact short file hlt
    · obtain ⟨frame, rest, rfl⟩ := exists_record_of_long long
      have shorter : rest.length < n := by
        rw [← hn, List.length_append, record_length]
        omega
      exact record frame rest (ih rest.length shorter rest rfl)

/-- A file of `N` bytes holds `N div 9` complete records (R160). -/
theorem hostRecords_length (file : List Byte) : (hostRecords file).length = file.length / 9 := by
  induction file using record_induction with
  | short file short => rw [hostRecords_of_short short, Nat.div_eq_of_lt short, List.length_nil]
  | record frame rest ih =>
    rw [hostRecords_append, List.length_cons, ih, List.length_append, record_length,
      Nat.add_div_left _ (by decide)]

/-- There is a partial record exactly when the length is no multiple of 9 (R160, R162). -/
theorem hostHasPartial_iff (file : List Byte) : hostHasPartial file = true ↔ file.length % 9 ≠ 0 := by
  simp [hostHasPartial]

/-- Byte `b` of record `r` is byte `9r + b` of the file (R160). -/
theorem file_getElem?_of_record (file : List Byte) {r : Nat} {frame : AmbeFrame}
    (isRecord : (hostRecords file)[r]? = some frame) (b : Fin 9) :
    file[9 * r + b.val]? = some frame[b] := by
  induction file using record_induction generalizing r with
  | short file short => simp [hostRecords_of_short short] at isRecord
  | record first rest ih =>
    rw [hostRecords_append] at isRecord
    cases r with
    | zero =>
      obtain rfl : first = frame := by simpa using isRecord
      have inFirst : 9 * 0 + b.val < first.toList.length := by
        rw [record_length]
        omega
      rw [List.getElem?_append_left inFirst]
      simp
    | succ r =>
      have shift : 9 * (r + 1) + b.val = first.toList.length + (9 * r + b.val) := by
        rw [record_length]
        omega
      rw [shift, List.getElem?_append_right (Nat.le_add_right _ _), Nat.add_sub_cancel_left]
      exact ih (by simpa using isRecord)

/-! ## Samples as bytes (R166) -/

section flatMapPair

variable {α β : Type} (f g : α → β) (xs : List α)

/-- Two entries for each element make the list twice as long. -/
theorem flatMap_pair_length : (xs.flatMap fun x => [f x, g x]).length = 2 * xs.length := by
  simp [List.length_flatMap, Nat.mul_comm]

/-- The entries of element `n` stand at `2n` and `2n + 1`. -/
theorem flatMap_pair_getElem? (n : Nat) :
    (xs.flatMap fun x => [f x, g x])[2 * n]? = xs[n]?.map f ∧
      (xs.flatMap fun x => [f x, g x])[2 * n + 1]? = xs[n]?.map g := by
  induction xs generalizing n with
  | nil => simp
  | cons x xs ih =>
    cases n with
    | zero => simp
    | succ n => simpa [Nat.mul_succ] using ih n

end flatMapPair

/-- A serialised PcmFrame is 320 bytes (R165, R166). -/
@[simp] theorem serialise_length (pcm : PcmFrame) : (serialise pcm).length = 320 := by
  calc (serialise pcm).length = 2 * pcm.toList.length := flatMap_pair_length _ _ _
    _ = 320 := by simp [pcmSamples]

/-- Bytes `2n` and `2n + 1` are the low and the high byte of sample `n` (R166). -/
theorem serialise_getElem? (pcm : PcmFrame) (n : Fin 160) :
    (serialise pcm)[2 * n.val]? = some (pcm[n].extractLsb' 0 8) ∧
      (serialise pcm)[2 * n.val + 1]? = some (pcm[n].extractLsb' 8 8) := by
  have sample : pcm.toList[n.val]? = some pcm[n] := by simp
  have bytes := flatMap_pair_getElem? (fun x : Sample => x.extractLsb' 0 8)
    (fun x : Sample => x.extractLsb' 8 8) pcm.toList n.val
  rwa [sample] at bytes

/-! ## The obligations -/

/-- Settles O52: the records' number and bytes by induction over the file record by record. -/
theorem hostRecordsAreTheFile : Obligations.HostRecordsAreTheFile := fun file =>
  ⟨hostRecords_length file, hostHasPartial_iff file,
    fun _ _ isRecord b => file_getElem?_of_record file isRecord b⟩

/-- Settles O53: each sample gives two bytes, found at twice its index. -/
theorem hostSerialisesLowByteFirst : Obligations.HostSerialisesLowByteFirst := fun pcm =>
  ⟨serialise_length pcm, fun n => serialise_getElem? pcm n⟩

end Sys2Proof.Proofs.HostFiles
end

section
/-! PROOFS. The reference host's command line (R161 to R173): what the stream loop does with one record
on a live decoder, where it is given up, and the exit codes that follow. On a live decoder every record
is answered with data, so a write that falls short is the loop's only way to fail. -/

namespace Sys2Proof.Proofs.HostExit

open Sys2Proof.Machine Sys2Proof.Proofs.DecoderOps

section host

variable {PS Q : Type} (P : Params PS Q)

/-! ## What the block answers to a list of records -/

/-- How many of the records a block in state `b` accepts, by its responses to a DECODE for each. -/
def acceptedFrom (b : BlockState PS) (records : List AmbeFrame) : Nat :=
  ((blockRun P b (records.map (Command.decode true true true))).2.filterMap (·.data)).countP
    (·.accepted)

/-- CREATE answers without data, so the count of a file starts at its first record. -/
theorem acceptedFrames_eq_acceptedFrom (file : List Byte) :
    acceptedFrames P file = acceptedFrom P (.ready P.stateDefault) (hostRecords file) := rfl

/-- A live decoder answers a record with data and stays live (R133). -/
theorem blockStep_decode_answers {b : BlockState PS} {st : Triple PS} (live : b.st = some st)
    (frame : AmbeFrame) :
    ∃ st' d, blockStep P b (.decode true true true frame) = (.active st', ⟨.ok, some d⟩) :=
  ⟨_, _, blockStep_decode_live P live frame⟩

section oneRecord

variable {P} {b b' : BlockState PS} {d : DecodeData} {frame : AmbeFrame}
  (answers : blockStep P b (.decode true true true frame) = (b', ⟨.ok, some d⟩))
  (rest : List AmbeFrame)
include answers

/-- The first record counts if it is accepted. -/
theorem acceptedFrom_cons :
    acceptedFrom P b (frame :: rest) = acceptedFrom P b' rest + if d.accepted then 1 else 0 := by
  simp [acceptedFrom, blockRun, answers, List.countP_cons]

/-- The loop ends at an accepted frame that cannot be written (R167, R168). -/
theorem hostLoop_cons_short (accepted : d.accepted = true) (t : HostTally) :
    hostLoop P b t (some 0) (frame :: rest) =
      { tally := { t with frames := t.frames + 1, errors := t.errors + d.total }
        block := b'
        commands := [.decode true true true frame]
        failure := some .shortWrite } := by
  simp [hostLoop, answers, accepted]

/-- The loop goes on after a muted frame, and after an accepted one that is written (R161). -/
theorem hostLoop_cons_continue {writes : Option Nat}
    (goesOn : ¬(d.accepted = true ∧ writes = some 0)) (t : HostTally) :
    hostLoop P b t writes (frame :: rest) =
      let s := hostLoop P b' (t.addFrame d) (if d.accepted then writes.map (· - 1) else writes) rest
      { s with commands := .decode true true true frame :: s.commands } := by
  simp [hostLoop, answers, goesOn]

end oneRecord

/-! ## Where the loop is given up (R167, R168) -/

/-- One write less and one accepted frame less leave it as it was whether a write falls short. -/
theorem any_map_pred_lt {writes : Option Nat} (more : writes ≠ some 0) (a : Nat) :
    (writes.map (· - 1)).any (· < a) = writes.any (· < a + 1) := by
  cases writes with
  | none => rfl
  | some n =>
    have pos : n ≠ 0 := fun zero => more (congrArg some zero)
    simp only [Option.map_some, Option.any_some, decide_eq_decide]
    omega

/-- On a live decoder the loop is given up exactly when more frames are accepted than can be written. -/
theorem hostLoop_failure {b : BlockState PS} {st : Triple PS} (live : b.st = some st) (t : HostTally)
    (writes : Option Nat) (records : List AmbeFrame) :
    (hostLoop P b t writes records).failure =
      if writes.any (· < acceptedFrom P b records) then some .shortWrite else none := by
  induction records generalizing b st t writes with
  | nil => cases writes <;> simp [hostLoop, acceptedFrom, blockRun]
  | cons frame rest ih =>
    obtain ⟨st', d, answers⟩ := blockStep_decode_answers P live frame
    rw [acceptedFrom_cons answers]
    by_cases stops : d.accepted = true ∧ writes = some 0
    · obtain ⟨accepted, rfl⟩ := stops
      simp [hostLoop_cons_short answers rest accepted, accepted]
    · rw [hostLoop_cons_continue answers rest stops]
      have after := ih (b := .active st') rfl (t.addFrame d)
        (if d.accepted then writes.map (· - 1) else writes)
      cases accepted : d.accepted with
      | false => simpa [accepted] using after
      | true =>
        have more : writes ≠ some 0 := fun zero => stops ⟨accepted, zero⟩
        simpa [accepted, any_map_pred_lt more] using after

/-! ## The exit code of a stream (R167) -/

/-- On a fresh block the exit code is the loop's success. -/
theorem hostDecode_uninit_exitCode (file : List Byte) (writes : Option Nat) :
    (hostDecode P .uninit file writes).exitCode =
      if writes.any (· < acceptedFrames P file) then 1 else 0 := by
  have created : blockStep P .uninit .create = (.ready P.stateDefault, ⟨.ok, none⟩) := rfl
  have loop := hostLoop_failure P (b := .ready P.stateDefault) rfl .start writes (hostRecords file)
  rw [← acceptedFrames_eq_acceptedFrom] at loop
  split at loop
  next short =>
    rw [if_pos short]
    simp [hostDecode, created, loop, HostOutcome.untouched]
  next good =>
    rw [if_neg good]
    simp [hostDecode, created, loop, HostOutcome.untouched]

/-- On a live block CREATE fails, and the host with it (R161, R167). -/
theorem hostDecode_live_exitCode {b : BlockState PS} {st : Triple PS} (live : b.st = some st)
    (file : List Byte) (writes : Option Nat) : (hostDecode P b file writes).exitCode = 1 := by
  simp [hostDecode, blockStep_create_live P live, HostOutcome.untouched]

/-- A block that is not in UNINIT is live (R23). -/
theorem exists_st_of_ne_uninit {b : BlockState PS} (notUninit : b ≠ .uninit) :
    ∃ st, b.st = some st := by
  cases b with
  | uninit => exact absurd rfl notUninit
  | ready st => exact ⟨st, rfl⟩
  | active st => exact ⟨st, rfl⟩

/-! ## `decode` on the command line (R161, R168) -/

variable (b : BlockState PS)

/-- With both files open the command line runs the stream. -/
@[simp] theorem hostMain_decode_open (file : List Byte) (writes : Option Nat) :
    hostMain P b (.decode (some file) true writes) = hostDecode P b file writes := rfl

/-- An input or an output that does not open, or a block that is not fresh, ends in exit code 1. -/
theorem hostMain_decode_exitCode_one {input : Option (List Byte)} {outOpens : Bool}
    (bad : input = none ∨ outOpens = false ∨ b ≠ .uninit) (writes : Option Nat) :
    (hostMain P b (.decode input outOpens writes)).exitCode = 1 := by
  match input, outOpens with
  | none, _ => rfl
  | some _, false => rfl
  | some file, true =>
    obtain ⟨st, live⟩ := exists_st_of_ne_uninit (b := b) (by simpa using bad)
    exact hostDecode_live_exitCode P live file writes

end host

/-! ## The obligation -/

/-- Settles O56: the failures of the outside world end in 1, and a stream on a fresh block in 0 or 1 as
its loop is given up; `info` and the usage compute. -/
theorem hostExitCodes : Obligations.HostExitCodes := by
  intro PS Q P b
  refine ⟨fun input outOpens writes => ⟨fun noInput => ?_, fun noOutput => ?_, fun notFresh => ?_,
    ?opened⟩, ⟨rfl, rfl, rfl, rfl⟩, rfl, rfl⟩
  · exact hostMain_decode_exitCode_one P b (.inl noInput) writes
  · exact hostMain_decode_exitCode_one P b (.inr (.inl noOutput)) writes
  · exact hostMain_decode_exitCode_one P b (.inr (.inr notFresh)) writes
  case opened =>
    rintro file rfl rfl rfl
    have exitCode := hostDecode_uninit_exitCode P file writes
    refine ⟨?allWritten, fun n => ?upTo⟩
    case allWritten =>
      rintro rfl
      simpa using exitCode
    case upTo =>
      rintro rfl
      simpa using exitCode

end Sys2Proof.Proofs.HostExit
end

section
/-! PROOFS. The failure statuses (R180 to R188). First what a command can answer at all: `OK`, or one of
the three failures; what a failure leaves alone is then read off the one state it answers. A muted
frame is not among the failures: its DECODE completes, and only the verdict differs (R184). -/

namespace Sys2Proof.Proofs.Failures

open Sys2Proof.Machine Sys2Proof.Proofs.Muting Sys2Proof.Proofs.DecoderOps

/-! ## What a failure leaves (R186) -/

/-- The state a command answers that ends with `f`: its status alone on the ports, and the model's own
record brought up to date (R130, log entry 1). -/
def failedState (f : Status) (s : State) : State := (s.recordFailure f).respondStatus f

@[simp] theorem failedState_rsp (f : Status) (s : State) :
    (failedState f s).ports.rsp = some ⟨f, none⟩ := rfl

/-- No register, no buffer and no input is touched, and the engine port is quiet (R186). -/
theorem failedState_frame (f : Status) (s : State) :
    (failedState f s).ports.eng = none ∧ (failedState f s).life = s.life ∧
    (failedState f s).st = s.st ∧ (failedState f s).diag = s.diag ∧
    (failedState f s).pcmBuf = s.pcmBuf ∧ (failedState f s).inputs = s.inputs := by
  simp [failedState]

/-! ## What a command can answer (R130) -/

/-- Every command that answers ends `OK`, with data or without, or fails. -/
theorem exec_command_cases {c : Command} {s t : State} (answers : exec c.toInstr s = .next t) :
    (∃ data, t.ports.rsp = some ⟨.ok, data⟩) ∨ ∃ f, f ≠ .ok ∧ t = failedState f s := by
  cases c with
  | create =>
    obtain ⟨-, rfl⟩ | ⟨-, rfl⟩ := execCreate_cases answers
    · exact .inl ⟨none, rfl⟩
    · exact .inr ⟨.allocFail, by decide, rfl⟩
  | reset h =>
    obtain ⟨-, rfl⟩ | ⟨-, -, rfl⟩ | ⟨-, -, rfl⟩ := execReset_cases answers
    · exact .inr ⟨.invalidArg, by decide, rfl⟩
    · exact .inr ⟨.lifecycle, by decide, rfl⟩
    · exact .inl ⟨none, rfl⟩
  | decode h f o frame =>
    obtain ⟨-, rfl⟩ | ⟨-, -, rfl⟩ | ⟨-, -, st, -, rfl⟩ := execDecode_cases answers
    · exact .inr ⟨.invalidArg, by decide, rfl⟩
    · exact .inr ⟨.lifecycle, by decide, rfl⟩
    · exact .inl ⟨some _, rfl⟩
  | destroy h =>
    obtain ⟨-, rfl⟩ | ⟨-, -, rfl⟩ | ⟨-, -, rfl⟩ := execDestroy_cases answers
    · exact .inl ⟨none, rfl⟩
    · exact .inr ⟨.lifecycle, by decide, rfl⟩
    · exact .inl ⟨none, rfl⟩

/-- A response with a failure status has no data, and the state is the failure's. -/
theorem exec_failure {c : Command} {s t : State} {r : Response}
    (answers : exec c.toInstr s = .next t) (response : t.ports.rsp = some r)
    (failure : r.status ≠ .ok) : r.data = none ∧ t = failedState r.status s := by
  obtain ⟨data, ok⟩ | ⟨f, -, rfl⟩ := exec_command_cases answers
  · obtain rfl := Option.some.inj (ok.symm.trans response)
    exact absurd rfl failure
  · obtain rfl := Option.some.inj ((failedState_rsp f s).symm.trans response)
    exact ⟨rfl, rfl⟩

/-! ## The obligations -/

/-- Settles O29: a command that fails answers `failedState`, whose frame is everything the statement
names. -/
theorem failureHasNoEffect : Obligations.FailureHasNoEffect := by
  intro c s t r answers response failure
  obtain ⟨noData, rfl⟩ := exec_failure answers response failure
  exact ⟨noData, failedState_frame r.status s⟩

/-- Settles O35: the DECODE of a live decoder completes whatever the total, and above the threshold the
verdict on it is a rejection. -/
theorem mutedFrameIsASuccess : Obligations.MutedFrameIsASuccess := by
  intro PS Q P b st frame live muted
  rw [blockStep_decode_live P live frame, blockDecode, verdict_total,
    (verdict_accepted_eq_false_iff _ _).mpr muted]

end Sys2Proof.Proofs.Failures
end

section
/-! PROOFS. The group bus `G` of R66 wire by wire, and the consequences R89 to R92 derive for
UNPACK's layout: the inverse map, the group words, the number of ones and the bus as the frame's
wires. -/

namespace Sys2Proof.Proofs.GroupLayout

open Sys2Proof.Machine Sys2Proof.Proofs.Encoding

/-! ## The group bus (R66) -/

/-- Wire `95 − 24j − p` carries the cell at position `p` of group `j` (R66). -/
theorem groupsBus_wire (g : Groups) {j p : Nat} (hj : j < 4) (hp : p < 24) :
    (groupsBus g).getLsbD (95 - 24 * j - p) = g[j][p] := by
  have group_eq : (95 - (95 - 24 * j - p)) / 24 = j := by omega
  have position_eq : (95 - (95 - 24 * j - p)) % 24 = p := by omega
  rw [groupsBus_getLsbD, if_pos (by omega), group_eq, position_eq, cell_of_lt g j p hj hp]

/-- Cells put on the bus are taken off it again (R66). -/
theorem groupsOfBus_groupsBus (g : Groups) : groupsOfBus (groupsBus g) = g :=
  groups_ext fun j p hj hp => (groupsOfBus_getElem _ j p hj hp).trans (groupsBus_wire g hj hp)

/-- A bus taken apart into cells is put together again (R66). -/
theorem groupsBus_groupsOfBus (G : BitVec 96) : groupsBus (groupsOfBus G) = G := by
  apply BitVec.eq_of_getLsbD_eq
  intro n (hn : n < 96)
  have group_lt : (95 - n) / 24 < 4 := by omega
  have position_lt : (95 - n) % 24 < 24 := by omega
  have wire_eq : 95 - 24 * ((95 - n) / 24) - (95 - n) % 24 = n := by omega
  rw [groupsBus_getLsbD, if_pos hn, cell_of_lt _ _ _ group_lt position_lt,
    groupsOfBus_getElem G _ _ group_lt position_lt, wire_eq]

/-- Group 3 stands on the low 24 wires, and is zero when they are (R66, R86). -/
theorem group3Zero_iff_groupsBus (g : Groups) :
    group3Zero g = true ↔ (groupsBus g).extractLsb' 0 24 = 0#24 := by
  have low_wire (p : Nat) (hp : p < 24) :
      ((groupsBus g).extractLsb' 0 24).getLsbD (23 - p) = g[3][p] := by
    have wire_eq : 0 + (23 - p) = 95 - 24 * 3 - p := by omega
    rw [BitVec.getLsbD_extractLsb', wire_eq, groupsBus_wire g (by decide) hp,
      decide_eq_true (by omega), Bool.true_and]
  rw [group3Zero_iff]
  constructor
  · intro zero
    apply BitVec.eq_of_getLsbD_eq
    intro n hn
    have low := low_wire (23 - n) (by omega)
    rw [Nat.sub_sub_self (by omega), zero (23 - n) (show 23 - n < 24 by omega)] at low
    rw [low, BitVec.getLsbD_zero]
  · intro zero p hp
    rw [← low_wire p hp, zero, BitVec.getLsbD_zero]

/-- UNPACK drives the frame's wires and 24 zero wires below them (R66, R92). -/
theorem groupsBus_unpack (frame : AmbeFrame) :
    groupsBus (unpack frame) = frameBus frame ++ 0#24 := by
  apply BitVec.eq_of_getLsbD_eq
  intro n (hn : n < 96)
  have group_lt : (95 - n) / 24 < 4 := by omega
  have position_lt : (95 - n) % 24 < 24 := by omega
  rw [groupsBus_getLsbD, if_pos hn, cell_of_lt _ _ _ group_lt position_lt,
    unpack_getElem frame _ _ group_lt position_lt, BitVec.getLsbD_append, BitVec.getLsbD_zero,
    frameBus_getLsbD]
  by_cases low : n < 24
  · rw [if_neg (by omega), if_pos low]
  · have k_eq : 24 * ((95 - n) / 24) + (95 - n) % 24 = 71 - (n - 24) := by omega
    rw [if_pos (by omega), if_neg low, if_pos (by omega), k_eq]

/-! ## The inverse map (R89) -/

/-- The frame is recovered from its layout (R89). -/
theorem repack_unpack (frame : AmbeFrame) : repack (unpack frame) = frame := by
  refine frame_ext fun b i (hb : b < 9) hi => ?_
  have group_lt : b / 3 < 3 := by omega
  have k_eq : 24 * (b / 3) + (8 * (b % 3) + (7 - i)) = 8 * b + (7 - i) := by omega
  rw [repack_getLsbD _ b i hb hi, cell_of_lt _ _ _ (show b / 3 < 4 by omega)
    (show 8 * (b % 3) + (7 - i) < 24 by omega), unpack_getElem, if_pos group_lt, k_eq,
    extract_byte_bit frame hb hi]

/-- UNPACK drives group 3 to zero (R86). -/
theorem group3Zero_unpack (frame : AmbeFrame) : group3Zero (unpack frame) = true :=
  (group3Zero_iff _).mpr fun p hp => unpack_getElem frame 3 p (by decide) hp

/-- `e(k)` of the recovered frame is the cell it comes from (R89). -/
theorem extract_repack (g : Groups) {k : Nat} (hk : k < 72) :
    extract (repack g) k = cell g (k / 24) (k % 24) := by
  have group_eq : k / 8 / 3 = k / 24 := by omega
  have position_eq : 8 * (k / 8 % 3) + (7 - (7 - k % 8)) = k % 24 := by omega
  rw [extract_of_lt _ k hk, repack_getLsbD g (k / 8) (7 - k % 8) _ (by omega), group_eq,
    position_eq]

/-- A layout with a zero group 3 is the recovered frame's (R89). -/
theorem unpack_repack {g : Groups} (zero : group3Zero g = true) : unpack (repack g) = g := by
  refine groups_ext fun j p (hj : j < 4) (hp : p < 24) => ?_
  rw [unpack_getElem _ j p hj hp]
  by_cases data : j < 3
  · have group_eq : (24 * j + p) / 24 = j := by omega
    have position_eq : (24 * j + p) % 24 = p := by omega
    rw [if_pos data, extract_repack g (by omega), group_eq, position_eq, cell_of_lt g j p hj hp]
  · obtain rfl : j = 3 := by omega
    rw [if_neg data, (group3Zero_iff g).mp zero p hp]

/-! ## The group words (R13, R90) -/

/-- A group word is its slice of the bus `G` (R13, R66). -/
theorem groupWord_eq_slice (g : Groups) {j : Nat} (hj : j < 4) :
    groupWord g j = (groupsBus g).extractLsb' (72 - 24 * j) 24 := by
  apply BitVec.eq_of_getLsbD_eq
  intro n (hn : n < 24)
  have wire_eq : 72 - 24 * j + n = 95 - 24 * j - (23 - n) := by omega
  rw [groupWord_getLsbD, if_pos hn, cell_of_lt g j _ hj (show 23 - n < 24 by omega),
    BitVec.getLsbD_extractLsb', wire_eq, groupsBus_wire g hj (by omega), decide_eq_true hn,
    Bool.true_and]

/-- The word of a data group is the frame's three bytes in order (R90). -/
theorem groupWord_unpack (frame : AmbeFrame) {j : Nat} (hj : j < 3) :
    groupWord (unpack frame) j =
      frame[3 * j]'(show 3 * j < 9 by omega) ++ frame[3 * j + 1]'(show 3 * j + 1 < 9 by omega) ++
        frame[3 * j + 2]'(show 3 * j + 2 < 9 by omega) := by
  rw [groupWord_eq_slice _ (by omega), groupsBus_unpack,
    BitVec.extractLsb'_append_eq_of_le (by omega), ← frameBus_slice frame (b := 3 * j) (by omega),
    ← frameBus_slice frame (b := 3 * j + 1) (by omega),
    ← frameBus_slice frame (b := 3 * j + 2) (by omega),
    BitVec.extractLsb'_append_extractLsb'_eq_extractLsb' (by omega),
    BitVec.extractLsb'_append_extractLsb'_eq_extractLsb' (by omega)]
  congr 1
  omega

/-- A byte below a word is its last base-256 digit. -/
theorem toNat_append_byte {n : Nat} (x : BitVec n) (b : Byte) :
    (x ++ b).toNat = x.toNat * 256 + b.toNat := by
  rw [BitVec.toNat_append, ← Nat.shiftLeft_add_eq_or_of_lt b.isLt, Nat.shiftLeft_eq]

/-- The word of a data group as a number (R90). -/
theorem groupWord_unpack_toNat (frame : AmbeFrame) {j : Nat} (hj : j < 3) :
    (groupWord (unpack frame) j).toNat =
      (frame[3 * j]'(show 3 * j < 9 by omega)).toNat * 65536 +
        (frame[3 * j + 1]'(show 3 * j + 1 < 9 by omega)).toNat * 256 +
        (frame[3 * j + 2]'(show 3 * j + 2 < 9 by omega)).toNat := by
  rw [groupWord_unpack frame hj, toNat_append_byte, toNat_append_byte]
  omega

/-- The word of group 3 is 0 (R90). -/
theorem groupWord_unpack_group3 (frame : AmbeFrame) : groupWord (unpack frame) 3 = 0#24 := by
  rw [groupWord_eq_slice _ (by decide)]
  exact (group3Zero_iff_groupsBus _).mp (group3Zero_unpack frame)

/-! ## The number of ones (R89) -/

/-- Counting in the first `m · n` numbers is counting in `n` blocks of `m`. -/
theorem count_mul (e : Nat → Prop) [DecidablePred e] (m n : Nat) :
    Nat.count e (m * n) =
      ((List.range n).map fun j => Nat.count (fun p => e (m * j + p)) m).sum := by
  induction n with
  | zero => simp
  | succ n ih => rw [Nat.mul_succ, Nat.count_add, ih, List.range_succ]; simp

/-- Counting backwards counts the same. -/
theorem count_reflect (e : Nat → Prop) [DecidablePred e] (n : Nat) :
    Nat.count (fun i => e (n - 1 - i)) n = Nat.count e n := by
  rw [Nat.count_eq_card_filter_range, Nat.count_eq_card_filter_range, Finset.card_filter,
    Finset.card_filter]
  exact Finset.sum_range_reflect (fun i => if e i then 1 else 0) n

/-- A map over a vector's entries is one over their indices. -/
theorem toList_map_eq_range_map {α β : Type} {n : Nat} (v : Vector α n) (f : α → β) (g : Nat → β)
    (entry : ∀ (i : Nat) (hi : i < n), f v[i] = g i) : v.toList.map f = (List.range n).map g := by
  apply List.ext_getElem
  · simp
  · intro i hi _
    simpa using entry i (by simpa using hi)

/-- The ones of byte `b` are those of its eight places in `e` (R45). -/
theorem ones_of_byte (frame : AmbeFrame) {b : Nat} (hb : b < 9) :
    (List.range 8).countP (fun i => frame[b].getLsbD i) =
      Nat.count (fun p => extract frame (8 * b + p) = true) 8 := by
  rw [← count_reflect]
  refine List.countP_congr fun i hi => ?_
  rw [← extract_byte_bit frame hb (List.mem_range.mp hi), decide_eq_true_iff]

/-- The frame has as many ones as `e` (R89). -/
theorem onesInFrame_eq_count (frame : AmbeFrame) :
    onesInFrame frame = Nat.count (fun k => extract frame k = true) 72 := by
  rw [onesInFrame, toList_map_eq_range_map frame _ _ fun b hb => ones_of_byte frame hb]
  exact (count_mul (fun k => extract frame k = true) 8 9).symm

/-- The ones of a group are those of its 24 places in `e`, and none in group 3 (R62, R63). -/
theorem ones_of_group (frame : AmbeFrame) {j : Nat} (hj : j < 4) :
    (unpack frame)[j].toList.count true =
      if j < 3 then Nat.count (fun p => extract frame (24 * j + p) = true) 24 else 0 := by
  have cells := toList_map_eq_range_map (unpack frame)[j] id _ fun p hp =>
    unpack_getElem frame j p hj hp
  rw [List.map_id] at cells
  rw [cells]
  by_cases data : j < 3
  · simp only [data, if_true]
    rw [List.count, List.countP_map]
    exact List.countP_congr fun p _ => by simp
  · simp [data, List.count_replicate]

/-- The layout has as many ones as `e`: group 3 adds none (R89). -/
theorem onesInGroups_unpack (frame : AmbeFrame) :
    onesInGroups (unpack frame) = Nat.count (fun k => extract frame k = true) 72 := by
  rw [onesInGroups, toList_map_eq_range_map (unpack frame) _ _ fun j hj => ones_of_group frame hj]
  exact (count_mul (fun k => extract frame k = true) 24 3).symm

/-! ## The obligations -/

/-- Settles O10: the inverse map undoes UNPACK, and UNPACK it on a layout with a zero group 3. -/
theorem unpackIsABijection : Obligations.UnpackIsABijection := by
  refine ⟨repack_unpack, fun _ zero => unpack_repack zero, fun f f' same => ?_,
    fun g b i => repack_getLsbD g b i b.isLt i.isLt⟩
  rw [← repack_unpack f, same, repack_unpack]

/-- Settles O11: both numbers count the ones of the extraction sequence. -/
theorem unpackKeepsTheNumberOfOnes : Obligations.UnpackKeepsTheNumberOfOnes := fun frame =>
  (onesInGroups_unpack frame).trans (onesInFrame_eq_count frame).symm

/-- Settles O12: a group word is a slice of the bus, and so three bytes of the frame. -/
theorem groupWordIsThreeBytes : Obligations.GroupWordIsThreeBytes := fun frame =>
  ⟨groupWord_unpack_toNat frame (j := 0) (by decide),
    groupWord_unpack_toNat frame (j := 1) (by decide),
    groupWord_unpack_toNat frame (j := 2) (by decide), groupWord_unpack_group3 frame⟩

/-- Settles O13: the bus wire by wire, for any layout and for UNPACK's. -/
theorem groupBusIsTheFrameThenZeros : Obligations.GroupBusIsTheFrameThenZeros :=
  ⟨fun g j p => groupsBus_wire g j.isLt p.isLt, groupsBus_unpack, groupsOfBus_groupsBus,
    groupsBus_groupsOfBus⟩

end Sys2Proof.Proofs.GroupLayout
end

section
/-! PROOFS. Words and instructions (R65 to R69, R74): the encoder puts each operand in the field the
decoder takes it from, and a command word is its five fields, so each undoes the other up to the
fields a command ignores. -/

namespace Sys2Proof.Proofs.RoundTrip

open Sys2Proof.Machine Sys2Proof.Proofs.Encoding Sys2Proof.Proofs.GroupLayout

/-! ## The fields of a command word (R67) -/

section fields

variable (op : BitVec 2) (h f o : Bool) (F : BitVec 72)

@[simp] theorem cmdOp_cmdWord : cmdOp (cmdWord op h f o F) = op := by
  rw [cmdOp, cmdWord, BitVec.extractLsb'_append_eq_of_le (by decide),
    BitVec.extractLsb'_append_eq_of_le (by decide), BitVec.extractLsb'_append_eq_of_le (by decide)]
  exact BitVec.extractLsb'_append_eq_left

@[simp] theorem cmdH_cmdWord : cmdH (cmdWord op h f o F) = h := by
  simp only [cmdH, cmdWord, BitVec.getLsbD_append, Nat.reduceLT, Nat.reduceSub, reduceIte]
  simp

@[simp] theorem cmdF_cmdWord : cmdF (cmdWord op h f o F) = f := by
  simp only [cmdF, cmdWord, BitVec.getLsbD_append, Nat.reduceLT, Nat.reduceSub, reduceIte]
  simp

@[simp] theorem cmdO_cmdWord : cmdO (cmdWord op h f o F) = o := by
  simp only [cmdO, cmdWord, BitVec.getLsbD_append, Nat.reduceLT, Nat.reduceSub, reduceIte]
  simp

/-- The low 72 bits are the field `frame` (R67). -/
theorem cmdWord_frame : (cmdWord op h f o F).extractLsb' 0 72 = F :=
  BitVec.extractLsb'_append_eq_right

end fields

/-- One bit as a slice. -/
theorem ofBool_getLsbD {n : Nat} (w : BitVec n) (i : Nat) :
    BitVec.ofBool (w.getLsbD i) = w.extractLsb' i 1 := by
  apply BitVec.eq_of_getLsbD_eq
  intro k hk
  obtain rfl : k = 0 := by omega
  simp

/-- A command word is its five fields (R67). -/
theorem cmdWord_fields (w : BitVec 77) :
    cmdWord (cmdOp w) (cmdH w) (cmdF w) (cmdO w) (w.extractLsb' 0 72) = w := by
  simp only [cmdWord, cmdOp, cmdH, cmdF, cmdO, ofBool_getLsbD]
  simp (disch := decide) only [BitVec.extractLsb'_append_extractLsb'_eq_extractLsb']
  exact BitVec.extractLsb'_eq_self

/-- The fields of a masked word are the fields of the two words, masked. -/
theorem and_eq_cmdWord (w m : BitVec 77) :
    w &&& m =
      cmdWord (cmdOp w &&& cmdOp m) (cmdH w && cmdH m) (cmdF w && cmdF m) (cmdO w && cmdO m)
        (w.extractLsb' 0 72 &&& m.extractLsb' 0 72) := by
  rw [← cmdWord_fields (w &&& m)]
  simp only [cmdOp, cmdH, cmdF, cmdO, BitVec.extractLsb'_and, BitVec.getLsbD_and]

/-- A word under a mask given by its fields. -/
theorem and_cmdWord (w : BitVec 77) (op : BitVec 2) (h f o : Bool) (F : BitVec 72) :
    w &&& cmdWord op h f o F =
      cmdWord (cmdOp w &&& op) (cmdH w && h) (cmdF w && f) (cmdO w && o)
        (w.extractLsb' 0 72 &&& F) := by
  rw [and_eq_cmdWord, cmdOp_cmdWord, cmdH_cmdWord, cmdF_cmdWord, cmdO_cmdWord, cmdWord_frame]

/-! ## The other ports' words (R65, R66, R101) -/

/-- The upper half of an error pair's word is `e1`. -/
theorem errPairWord_upper {errW e1 : Nat} (fits : errFits errW e1 = true) (e2 : Nat) :
    ((errPairWord errW e1 e2).extractLsb' errW errW).toNat = e1 := by
  rw [errPairWord, BitVec.extractLsb'_cast, BitVec.extractLsb'_append_eq_left, BitVec.toNat_ofNat,
    Nat.mod_eq_of_lt (of_decide_eq_true fits)]

/-- The lower half of an error pair's word is `e2`. -/
theorem errPairWord_lower {errW e2 : Nat} (fits : errFits errW e2 = true) (e1 : Nat) :
    ((errPairWord errW e1 e2).extractLsb' 0 errW).toNat = e2 := by
  rw [errPairWord, BitVec.extractLsb'_cast, BitVec.extractLsb'_append_eq_right, BitVec.toNat_ofNat,
    Nat.mod_eq_of_lt (of_decide_eq_true fits)]

/-- A field of `errW` bits holds a count that fits. -/
theorem errFits_toNat {errW : Nat} (e : BitVec errW) : errFits errW e.toNat = true :=
  decide_eq_true e.isLt

/-- A word on the engine port is a call exactly when the cells it carries have a zero group 3 (R86).
-/
theorem group3Zero_groupsOfBus (G : BitVec 96) :
    group3Zero (groupsOfBus G) = true ↔ G.extractLsb' 0 24 = 0#24 := by
  rw [group3Zero_iff_groupsBus, groupsBus_groupsOfBus]

theorem decodeAt_eng_of_zero {errW : Nat} {w : BitVec 96} (zero : w.extractLsb' 0 24 = 0#24)
    (st : DecoderState) :
    decodeAt (errW := errW) (.eng w st) = .ok (.synth (groupsOfBus w) st) :=
  if_pos zero

theorem decodeAt_eng_of_ne {errW : Nat} {w : BitVec 96} (reserved : w.extractLsb' 0 24 ≠ 0#24)
    (st : DecoderState) : decodeAt (errW := errW) (.eng w st) = .error .group3NotZero :=
  if_neg reserved

/-! ## Commands (R68, R69) -/

/-- A frame that DECODE ignores is the canonical one (R68, log entry 19). -/
theorem eq_canonical_of_frameTaken {frame : AmbeFrame} (taken : frameTaken false frame = true) :
    frame = .canonical := by
  simpa [frameTaken] using taken

/-- The field `frame` that the encoder writes is read back as the frame. -/
theorem cmdFrame_cmdWord {f : Bool} {frame : AmbeFrame} (taken : frameTaken f frame = true)
    (op : BitVec 2) (h o : Bool) :
    cmdFrame (cmdWord op h f o (frameField f frame)) = frame := by
  cases f with
  | false => rw [cmdFrame_ignored (cmdF_cmdWord ..), eq_canonical_of_frameTaken taken]
  | true =>
    rw [cmdFrame_present (cmdF_cmdWord ..), cmdWord_frame, frameField_present,
      frameOfBus_frameBus]

/-- The frame the decoder reads is one DECODE can have (R68). -/
theorem frameTaken_cmdFrame (w : BitVec 77) : frameTaken (cmdF w) (cmdFrame w) = true := by
  cases present : cmdF w with
  | false => simp [frameTaken, cmdFrame_ignored present]
  | true => rfl

/-- Every command word stands for a well-formed instruction (R74). -/
theorem decodeCmd_wellFormed (w : BitVec 77) (errW : Nat) : WellFormed (decodeCmd w) errW := by
  unfold decodeCmd
  split_ifs
  · rfl
  · rfl
  · exact frameTaken_cmdFrame w
  · rfl

/-! ## The bits a command takes (R68) -/

/-- The encoder writes the field `frame` of a DECODE word out again, or zeros where it is ignored
(R68). -/
theorem frameField_cmdFrame (w : BitVec 77) :
    frameField (cmdF w) (cmdFrame w) =
      w.extractLsb' 0 72 &&& if cmdF w then BitVec.allOnes 72 else 0#72 := by
  cases present : cmdF w with
  | false => exact BitVec.and_zero.symm
  | true =>
    rw [cmdFrame_present present, frameField_present, frameBus_frameOfBus]
    exact BitVec.and_allOnes.symm

/-- The bits of a word that its command takes (R68). -/
def takenBits (w : BitVec 77) : BitVec 77 :=
  if cmdOp w = 0b00#2 then cmdWord 0b11#2 false false false 0#72
  else if cmdOp w = 0b10#2 then
    cmdWord 0b11#2 true true true (if cmdF w then BitVec.allOnes 72 else 0#72)
  else cmdWord 0b11#2 true false false 0#72

/-- The encoder writes exactly the bits the command takes (R68). -/
theorem encode_decodeCmd (w : BitVec 77) : encode (decodeCmd w) = .cmd (w &&& takenBits w) := by
  match op : cmdOp w with
  | 0b00#2 => rw [decodeCmd_of_op_00 op]; simp [encode, takenBits, op, and_cmdWord]
  | 0b01#2 => rw [decodeCmd_of_op_01 op]; simp [encode, takenBits, op, and_cmdWord]
  | 0b10#2 =>
    rw [decodeCmd_of_op_10 op, encode, frameField_cmdFrame]
    simp [takenBits, op, and_cmdWord]
  | 0b11#2 => rw [decodeCmd_of_op_11 op]; simp [encode, takenBits, op, and_cmdWord]

/-- The masks of R67 and R68 in hexadecimal. -/
theorem takenBits_eq (w : BitVec 77) :
    takenBits w =
      if w.extractLsb' 75 2 = 0b00#2 then 0x18000000000000000000#77
      else if w.extractLsb' 75 2 = 0b10#2 then
        if w.getLsbD 73 then 0x1FFFFFFFFFFFFFFFFFFF#77 else 0x1F000000000000000000#77
      else 0x1C000000000000000000#77 := by
  unfold takenBits cmdOp cmdF
  split_ifs <;> decide

/-! ## The obligations -/

/-- Settles O1: for each instruction, each field of its word is read back. -/
theorem decodeOfEncodeIsTheInstruction : Obligations.DecodeOfEncodeIsTheInstruction := by
  intro errW i wf
  cases i with
  | create => exact congrArg Except.ok (decodeCmd_of_op_00 (cmdOp_cmdWord ..))
  | reset h =>
    exact congrArg Except.ok ((decodeCmd_of_op_01 (cmdOp_cmdWord ..)).trans (by rw [cmdH_cmdWord]))
  | decode h f o frame =>
    refine congrArg Except.ok ((decodeCmd_of_op_10 (cmdOp_cmdWord ..)).trans ?_)
    rw [cmdH_cmdWord, cmdF_cmdWord, cmdO_cmdWord, cmdFrame_cmdWord wf]
  | destroy h =>
    exact congrArg Except.ok ((decodeCmd_of_op_11 (cmdOp_cmdWord ..)).trans (by rw [cmdH_cmdWord]))
  | unpack frame =>
    exact congrArg (Except.ok ∘ Instr.unpack) (frameOfBus_frameBus frame)
  | decideErrs e1 e2 =>
    obtain ⟨fits1, fits2⟩ := Bool.and_eq_true_iff.mp wf
    exact congrArg₂ (fun a b => Except.ok (Instr.decideErrs a b)) (errPairWord_upper fits1 e2)
      (errPairWord_lower fits2 e1)
  | synth g st =>
    refine (decodeAt_eng_of_zero ((group3Zero_iff_groupsBus g).mp wf) st).trans ?_
    rw [groupsOfBus_groupsBus]

/-- Settles O2: port by port, the operands are read from fields that hold only such values. -/
theorem decodedInstructionIsWellFormed : Obligations.DecodedInstructionIsWellFormed := by
  intro errW w i decoded
  cases w with
  | cmd w =>
    obtain rfl := Except.ok.inj decoded
    exact decodeCmd_wellFormed w errW
  | unp w =>
    obtain rfl := Except.ok.inj decoded
    rfl
  | dec w =>
    obtain rfl := Except.ok.inj decoded
    exact Bool.and_eq_true_iff.mpr ⟨errFits_toNat _, errFits_toNat _⟩
  | eng w st =>
    by_cases zero : w.extractLsb' 0 24 = 0#24
    · obtain rfl := Except.ok.inj ((decodeAt_eng_of_zero zero st).symm.trans decoded)
      exact (group3Zero_groupsOfBus w).mpr zero
    · cases (decodeAt_eng_of_ne zero st).symm.trans decoded

/-- Settles O3: the encoder keeps the bits the command takes, and the masks are those. -/
theorem commandWordReencodesCanonically : Obligations.CommandWordReencodesCanonically := by
  intro w i decoded
  obtain rfl := Except.ok.inj decoded
  rw [← takenBits_eq]
  exact encode_decodeCmd w

/-- Settles O5: the decoder run on each word. -/
theorem wordsOfTheSpecDecode : Obligations.WordsOfTheSpecDecode := by
  refine ⟨by decide, by decide, by decide, by decide, by decide, by decide, fun st => ?call⟩
  case call =>
    have cells : groupsOfBus 0#96 = Vector.replicate 4 (Vector.replicate 24 false) := by decide
    rw [← cells]
    exact decodeAt_eng_of_zero (by decide) st

/-- Settles O28: the code of each value, none of them `0b11`. -/
theorem lifeCodesOfTheSpec : Obligations.LifeCodesOfTheSpec := by
  refine ⟨rfl, rfl, rfl, fun l => ?_⟩
  cases l <;> decide

end Sys2Proof.Proofs.RoundTrip
end

section
/-! PROOFS. What the instructions answer, whole. `CommandAnswer` says once every way a command can
end and what state it leaves then; what a command shows on its ports, what it does with the engine
and what the model records are read off it. -/

namespace Sys2Proof.Proofs.Answers

open Sys2Proof.Machine Sys2Proof.Safety Sys2Proof.Proofs.Encoding Sys2Proof.Proofs.DecoderOps
  Sys2Proof.Proofs.Failures

/-! ## DECODE, one equation a case (R133) -/

theorem decodeArgsPresent_eq_false {h f o : Bool} (missing : h = false ∨ f = false ∨ o = false) :
    decodeArgsPresent h f o = false := by
  obtain rfl | rfl | rfl := missing <;> simp [decodeArgsPresent]

theorem execDecode_missing {h f o : Bool} (missing : h = false ∨ f = false ∨ o = false)
    (frame : AmbeFrame) (s : State) :
    execDecode h f o frame s = .next (s.respondStatus .invalidArg) :=
  (if_pos (decodeArgsPresent_eq_false missing)).trans (raise_of_ne (by decide) s)

theorem execDecode_uninit {s : State} (uninit : s.life = .uninit) (frame : AmbeFrame) :
    execDecode true true true frame s =
      .next (State.respondStatus .lifecycle { s with lifecycleFault := true }) :=
  (if_pos uninit).trans (raise_lifecycle s)

/-- A read of an `st` that holds no value is a fault (R23, U8). -/
theorem execDecode_noState {s : State} (live : s.life ≠ .uninit) (noState : s.st = none)
    (frame : AmbeFrame) : execDecode true true true frame s = .fault .stHasNoValue := by
  simp [execDecode, decodeArgsPresent, live, noState]

/-! ## Every way a command can end (R130 to R134) -/

/-- The states a command can leave, with the command and the registers that lead there. -/
inductive CommandAnswer (s : State) : Command → State → Prop where
  /-- A failure of any command (R186). -/
  | failed (c : Command) {f : Status} (failure : f ≠ .ok) : CommandAnswer s c (failedState f s)
  /-- CREATE in UNINIT (R131). -/
  | created (uninit : s.life = .uninit) : CommandAnswer s .create (freshState s)
  /-- RESET of a live decoder (R132). -/
  | reset (live : s.life ≠ .uninit) : CommandAnswer s (.reset true) (freshState s)
  /-- DECODE that passes its checks (R133). -/
  | decoded {frame : AmbeFrame} {st : DecoderState} (live : s.life ≠ .uninit)
      (holds : s.st = some st) :
      CommandAnswer s (.decode true true true frame) (decodeFrame frame st s)
  /-- DESTROY of a live decoder (R134). -/
  | released (live : s.life ≠ .uninit) :
      CommandAnswer s (.destroy true) (s.releaseDecoder.respondStatus .ok)
  /-- DESTROY without a handle (R134). -/
  | noHandle : CommandAnswer s (.destroy false) (s.respondStatus .ok)

theorem exec_command_answer {c : Command} {s t : State} (answers : exec c.toInstr s = .next t) :
    CommandAnswer s c t := by
  cases c with
  | create =>
    obtain ⟨uninit, rfl⟩ | ⟨-, rfl⟩ := execCreate_cases answers
    · exact .created uninit
    · exact .failed _ (by decide)
  | reset h =>
    obtain ⟨-, rfl⟩ | ⟨-, -, rfl⟩ | ⟨rfl, live, rfl⟩ := execReset_cases answers
    · exact .failed _ (by decide)
    · exact .failed _ (by decide)
    · exact .reset live
  | decode h f o frame =>
    obtain ⟨-, rfl⟩ | ⟨-, -, rfl⟩ | ⟨present, live, st, holds, rfl⟩ := execDecode_cases answers
    · exact .failed _ (by decide)
    · exact .failed _ (by decide)
    · obtain ⟨rfl, rfl, rfl⟩ := decodeArgsPresent_eq_true.mp present
      exact .decoded live holds
  | destroy h =>
    obtain ⟨rfl, rfl⟩ | ⟨-, -, rfl⟩ | ⟨rfl, live, rfl⟩ := execDestroy_cases answers
    · exact .noHandle
    · exact .failed _ (by decide)
    · exact .released live

/-! ## What a command's answer shows and records -/

section answer

variable {c : Command} {s t : State} (answer : CommandAnswer s c t)
include answer

/-- The caller's words are not a command's to take (R50). -/
theorem CommandAnswer.inputs : t.inputs = s.inputs := by
  cases answer <;> rfl

/-- The model's record is set by a `LIFECYCLE` response and by nothing else (log entry 1). -/
theorem CommandAnswer.lifecycleFault :
    t.lifecycleFault = (s.lifecycleFault || decide (lastStatus t = some .lifecycle)) := by
  cases answer with
  | failed => simp [failedState, lastStatus]
  | created => simp [freshState, lastStatus]
  | reset => simp [freshState, lastStatus]
  | decoded => simp [decodeFrame, lastStatus]
  | released => simp [lastStatus]
  | noHandle => simp [lastStatus]

/-- One response, alone on the ports but for the engine call, with data for an `OK` DECODE (R70). -/
theorem CommandAnswer.response :
    ∃ r : Response, t.ports.rsp = some r ∧ t.ports.unp = none ∧ t.ports.dec = none ∧
      (r.data.isSome = true ↔ (∃ h f o frame, c = .decode h f o frame) ∧ r.status = .ok) := by
  cases answer with
  | failed _ failure => exact ⟨_, rfl, rfl, rfl, by simp [failure]⟩
  | created => exact ⟨_, rfl, rfl, rfl, by simp⟩
  | reset => exact ⟨_, rfl, rfl, rfl, by simp⟩
  | decoded => exact ⟨_, rfl, rfl, rfl, by simp⟩
  | released => exact ⟨_, rfl, rfl, rfl, by simp⟩
  | noHandle => exact ⟨_, rfl, rfl, rfl, by simp⟩

/-- A response with data is that of a DECODE which ran the engine (R70, R122). -/
theorem CommandAnswer.decoded_of_data {r : Response} {d : DecodeData}
    (response : t.ports.rsp = some r) (data : r.data = some d) :
    ∃ frame st, c = .decode true true true frame ∧ s.st = some st ∧
      t = decodeFrame frame st s ∧
      d = decodeData (callEngine Config.params (unpack frame) st).ans := by
  cases answer with
  | decoded live holds =>
    obtain rfl := Option.some.inj response
    exact ⟨_, _, rfl, holds, rfl, (Option.some.inj data).symm⟩
  | failed | created | reset | released | noHandle =>
    obtain rfl := Option.some.inj response
    cases data

/-- A request on the engine port is that of a DECODE which ran the engine (R122). -/
theorem CommandAnswer.decoded_of_engineCall {e : EngineCall} (call : t.ports.eng = some e) :
    ∃ frame st, c = .decode true true true frame ∧ s.life ≠ .uninit ∧ s.st = some st ∧
      t = decodeFrame frame st s ∧ e = callEngine Config.params (unpack frame) st := by
  cases answer with
  | decoded live holds => exact ⟨_, _, rfl, live, holds, rfl, (Option.some.inj call).symm⟩
  | failed | created | reset | released | noHandle => cases call

end answer

/-- A DECODE of a live decoder that answers with every reference present has called the engine
(R122). -/
theorem execDecode_calls {frame : AmbeFrame} {s t : State} (live : s.life ≠ .uninit)
    (answers : execDecode true true true frame s = .next t) : t.ports.eng ≠ none := by
  obtain ⟨missing, -⟩ | ⟨-, uninit, -⟩ | ⟨-, -, st, -, rfl⟩ := execDecode_cases answers
  · cases missing
  · exact absurd uninit live
  · simp [decodeFrame]

/-- What the ports showed before is nothing to a command (R25, D16). -/
theorem exec_command_ignores_ports (c : Command) (s : State) (p : Ports) :
    exec c.toInstr { s with ports := p } = exec c.toInstr s := by
  cases c <;> rfl

/-- A failed command leaves the ports apart, and the model's record put back, no trace (R188). -/
theorem failedState_record_restored (f : Status) (s : State) :
    { failedState f s with lifecycleFault := s.lifecycleFault } =
      { s with ports := (failedState f s).ports } := rfl

/-! ## The obligations -/

/-- Settles O18: the decoder on the port `unp_frame`, the one case of UNPACK, and its cells. -/
theorem unpackResult : Obligations.UnpackResult :=
  ⟨fun _ => rfl, fun frame _ => ⟨rfl, fun j p => unpack_getElem frame j p j.isLt p.isLt⟩⟩

/-- Settles O19: the decoder on the port of error pairs, and the one case of DECIDE. -/
theorem decideResult : Obligations.DecideResult :=
  ⟨fun _ _ => rfl, fun _ _ _ => rfl⟩

/-- Settles O20: the one case of SYNTH. -/
theorem synthResult : Obligations.SynthResult := fun _ _ _ => rfl

/-- Settles O23: the decoder on `op = 10`, and the cases of `execDecode`. -/
theorem decodeResult : Obligations.DecodeResult :=
  ⟨fun w op => ⟨cmdFrame w, congrArg Except.ok (decodeCmd_of_op_10 op), cmdFrame_present⟩,
    fun _ _ _ frame s missing => execDecode_missing missing frame s,
    fun frame _ uninit => ⟨true, execDecode_uninit uninit frame⟩,
    fun frame _ _ live holds => execDecode_live live holds frame⟩

/-- Settles O25: the case of `execDecode` that reads no value. -/
theorem decodeOfNoStateFaults : Obligations.DecodeOfNoStateFaults :=
  fun frame _ live noState => execDecode_noState live noState frame

/-- Settles O30: a failure leaves the state it found but for the ports, which no command reads. -/
theorem nextCommandAsIfFailureNotIssued : Obligations.NextCommandAsIfFailureNotIssued := by
  intro c c' s t r answers response failure
  obtain ⟨-, rfl⟩ := exec_failure answers response failure
  rw [failedState_record_restored]
  exact exec_command_ignores_ports c' s _

/-- Settles O31: the response of each way a command can end. -/
theorem dataFieldsOnlyOfAnOkDecode : Obligations.DataFieldsOnlyOfAnOkDecode := fun _ _ _ answers =>
  (exec_command_answer answers).response

/-- Settles O33: a response with data is that of a DECODE which ran the engine, and carries its
samples. -/
theorem pcmIsPassedThrough : Obligations.PcmIsPassedThrough := by
  intro h f o frame s t r d answers response data
  have answer := exec_command_answer (c := .decode h f o frame) answers
  obtain ⟨frame, st, same, holds, rfl, rfl⟩ := answer.decoded_of_data response data
  obtain ⟨rfl, rfl, rfl, rfl⟩ := Command.decode.inj same
  exact ⟨st, holds, rfl, rfl⟩

/-- Settles O36: a DECODE that passes its checks calls the engine, and no other command does. -/
theorem engineCalledOnceByAPassingDecode : Obligations.EngineCalledOnceByAPassingDecode := by
  intro c s t answers
  have answer := exec_command_answer answers
  refine ⟨⟨fun called => ?only, ?all⟩, fun e call => ?arguments⟩
  case only =>
    obtain ⟨e, call⟩ := Option.ne_none_iff_exists'.mp called
    obtain ⟨frame, -, rfl, live, -⟩ := answer.decoded_of_engineCall call
    exact ⟨live, frame, rfl⟩
  case all =>
    rintro ⟨live, frame, rfl⟩
    exact execDecode_calls live answers
  case arguments =>
    obtain ⟨frame, st, rfl, -, holds, rfl, rfl⟩ := answer.decoded_of_engineCall call
    exact ⟨frame, st, rfl, holds, rfl, rfl, rfl, rfl⟩

end Sys2Proof.Proofs.Answers
end

section
/-! PROOFS. The machine against the spec's one step function R136. A command on registers that hold
a pair `(life, st)` leaves the pair, and gives the response, that the function says; a run is then
its fold by induction over the commands, and a caller that keeps its duties sees only `OK`. -/

namespace Sys2Proof.Proofs.StepFunction

open Sys2Proof.Machine Sys2Proof.Safety Sys2Proof.Proofs.DecoderOps Sys2Proof.Proofs.HostExit
  Sys2Proof.Proofs.RoundTrip Sys2Proof.Proofs.Answers

/-! ## The pair that the registers hold (R23, R136) -/

/-- The registers hold `b` when `life` and `st` are `b`'s. -/
theorem block_eq_some_iff {s : State} {b : BlockState ParamSet} :
    s.block = some b ↔ s.life = b.life ∧ s.st = b.st := by
  unfold State.block
  cases b <;> cases s.life <;> cases s.st <;> simp [BlockState.life, BlockState.st]

/-- A pair is UNINIT, or it is live and holds a triple (R23). -/
theorem uninit_or_live {PS : Type} (b : BlockState PS) : b = .uninit ∨ ∃ st, b.st = some st := by
  by_cases uninit : b = .uninit
  · exact .inl uninit
  · exact .inr (exists_st_of_ne_uninit uninit)

/-- A pair that holds a triple is not in UNINIT (R23). -/
theorem life_ne_uninit {PS : Type} {b : BlockState PS} {st : Triple PS} (live : b.st = some st) :
    b.life ≠ .uninit := by
  obtain rfl | rfl := blockState_st_eq_some.mp live <;> nofun

/-! ## One command (R136) -/

/-- The command's outcome is the one that the step function gives: it completes, its registers hold
the function's pair and the response is the function's. -/
def Agrees (o : StepResult) (p : BlockState ParamSet × Response) : Prop :=
  ∃ t, o = .next t ∧ t.block = some p.1 ∧ t.ports.rsp = some p.2

section commands

variable {s : State} {b : BlockState ParamSet} {st : DecoderState}

/-- A response without data, on registers that stay as they are. -/
theorem agrees_respondStatus (holds : s.block = some b) (f : Status) :
    Agrees (.next (s.respondStatus f)) (b, ⟨f, none⟩) :=
  ⟨_, rfl, holds, rfl⟩

/-- The same where the model records a `LIFECYCLE` ending. -/
theorem agrees_lifecycle (holds : s.block = some b) :
    Agrees (.next (State.respondStatus .lifecycle { s with lifecycleFault := true }))
      (b, ⟨.lifecycle, none⟩) :=
  ⟨_, rfl, holds, rfl⟩

/-- CREATE in UNINIT, and RESET of a live decoder. -/
theorem agrees_freshState (s : State) :
    Agrees (.next (freshState s)) (.ready Config.params.stateDefault, ⟨.ok, none⟩) :=
  ⟨_, rfl, rfl, rfl⟩

theorem execCreate_agrees (holds : s.block = some b) :
    Agrees (execCreate s) (blockStep Config.params b .create) := by
  obtain ⟨life, -⟩ := block_eq_some_iff.mp holds
  obtain rfl | ⟨st, live⟩ := uninit_or_live b
  · rw [execCreate_uninit life]
    exact agrees_freshState s
  · rw [execCreate_live (life ▸ life_ne_uninit live), blockStep_create_live _ live]
    exact agrees_respondStatus holds .allocFail

theorem execReset_agrees (holds : s.block = some b) (h : Bool) :
    Agrees (execReset h s) (blockStep Config.params b (.reset h)) := by
  obtain ⟨life, -⟩ := block_eq_some_iff.mp holds
  cases h with
  | false =>
    rw [execReset_noHandle]
    exact agrees_respondStatus holds .invalidArg
  | true =>
    obtain rfl | ⟨st, live⟩ := uninit_or_live b
    · rw [execReset_uninit life]
      exact agrees_lifecycle holds
    · rw [execReset_live (life ▸ life_ne_uninit live), blockStep_reset_live _ live]
      exact agrees_freshState s

theorem execDecode_agrees (holds : s.block = some b) (h f o : Bool) (frame : AmbeFrame) :
    Agrees (execDecode h f o frame s) (blockStep Config.params b (.decode h f o frame)) := by
  obtain ⟨life, state⟩ := block_eq_some_iff.mp holds
  by_cases missing : h = false ∨ f = false ∨ o = false
  · rw [execDecode_missing missing, blockStep_decode_missing _ b frame missing]
    exact agrees_respondStatus holds .invalidArg
  · obtain ⟨rfl, rfl, rfl⟩ : h = true ∧ f = true ∧ o = true := by simpa using missing
    obtain rfl | ⟨st, live⟩ := uninit_or_live b
    · rw [execDecode_uninit life]
      exact agrees_lifecycle holds
    · rw [execDecode_live (life ▸ life_ne_uninit live) (state.trans live),
        blockStep_decode_live _ live]
      exact ⟨_, rfl, rfl, rfl⟩

theorem execDestroy_agrees (holds : s.block = some b) (h : Bool) :
    Agrees (execDestroy h s) (blockStep Config.params b (.destroy h)) := by
  obtain ⟨life, -⟩ := block_eq_some_iff.mp holds
  cases h with
  | false => exact agrees_respondStatus holds .ok
  | true =>
    obtain rfl | ⟨st, live⟩ := uninit_or_live b
    · rw [execDestroy_uninit life]
      exact agrees_lifecycle holds
    · rw [execDestroy_live (life ▸ life_ne_uninit live), blockStep_destroy_live _ live]
      exact ⟨_, rfl, rfl, rfl⟩

/-- The machine's commands are the step function (R136). -/
theorem exec_command_agrees (holds : s.block = some b) (c : Command) :
    Agrees (exec c.toInstr s) (blockStep Config.params b c) := by
  cases c with
  | create => exact execCreate_agrees holds
  | reset h => exact execReset_agrees holds h
  | decode h f o frame => exact execDecode_agrees holds h f o frame
  | destroy h => exact execDestroy_agrees holds h

end commands

/-! ## A command that the caller presents (R50, R67, R68) -/

/-- A step runs the word presented, with that word taken (R19, R50). -/
theorem step_word {s : State} {w : PortWord} {rest : List Input}
    (next : s.inputs = .word w :: rest) :
    step s = runWord w { s with inputs := rest } := by
  have taken : s.takeInput = some (.word w, { s with inputs := rest }) :=
    takeInput_eq_some.mpr ⟨rest, next, rfl⟩
  rw [step, taken]

/-- A word that stands for an instruction is run as that instruction. -/
theorem runWord_of_decode {w : PortWord} {i : Instr} (decoded : decode w = .ok i) (s : State) :
    runWord w s = exec i s := by
  rw [runWord, decoded]

/-- The word of a command does what the command does, a frame that DECODE ignores apart (R68). -/
theorem runWord_encode_command (c : Command) (s : State) :
    runWord (encode c.toInstr) s = exec c.toInstr s := by
  have of_wellFormed {i : Instr} (wf : WellFormed i) : runWord (encode i) s = exec i s :=
    runWord_of_decode (decodeOfEncodeIsTheInstruction _ i wf) s
  cases c with
  | create => exact of_wellFormed rfl
  | reset h => exact of_wellFormed rfl
  | decode h f o frame =>
    cases f with
    | true => exact of_wellFormed rfl
    | false =>
      have ignored : WellFormed (.decode h false o .canonical) :=
        show frameTaken false .canonical = true by decide
      exact (of_wellFormed ignored).trans (execDecode_ignores_frame h o _ frame s)
  | destroy h => exact of_wellFormed rfl

/-- A step on a presented command: the registers and the response as the step function says, the
caller's next words as they were, and the model's record brought up to date. -/
theorem step_presented {s : State} {b : BlockState ParamSet} {c : Command} {rest : List Input}
    (holds : s.block = some b) (next : s.inputs = presented c :: rest) :
    ∃ t, step s = .next t ∧ t.block = some (blockStep Config.params b c).1 ∧
      t.ports.rsp = some (blockStep Config.params b c).2 ∧ t.inputs = rest ∧
      t.lifecycleFault = (s.lifecycleFault ||
        decide ((blockStep Config.params b c).2.status = .lifecycle)) := by
  obtain ⟨t, answers, block, response⟩ :=
    exec_command_agrees (s := { s with inputs := rest }) holds c
  have answer := exec_command_answer answers
  refine ⟨t, ?_, block, response, answer.inputs, ?_⟩
  · rw [step_word next, runWord_encode_command, answers]
  · rw [answer.lifecycleFault, lastStatus, response]
    simp

/-! ## Runs (R136) -/

/-- The run over the commands presented is the fold, and the ports show the fold's last response, or
what they showed before where there is none. -/
theorem run_eq_blockRun (cs : List Command) {s : State} {b : BlockState ParamSet}
    {rest : List Input} (holds : s.block = some b)
    (next : s.inputs = cs.map presented ++ rest) :
    ∃ t, Sys2Proof.core.run cs.length s = .next t ∧
      t.block = some (blockRun Config.params b cs).1 ∧ t.inputs = rest ∧
      t.ports.rsp = (blockRun Config.params b cs).2.getLast?.or s.ports.rsp := by
  induction cs generalizing s b with
  | nil => exact ⟨s, core_run_zero s, holds, next, rfl⟩
  | cons c cs ih =>
    obtain ⟨u, first, block, response, inputs, -⟩ := step_presented holds next
    obtain ⟨t, run, block, inputs, responses⟩ := ih block inputs
    refine ⟨t, (core_run_succ _ first).trans run, block, inputs, ?_⟩
    rw [responses, response, blockRun, List.getLast?_cons, Option.some_or, Option.or_some]

/-- As many responses as commands (R70). -/
theorem blockRun_responses_length {PS Q : Type} (P : Params PS Q) (b : BlockState PS)
    (cs : List Command) : (blockRun P b cs).2.length = cs.length := by
  induction cs generalizing b with
  | nil => rfl
  | cons c cs ih => exact congrArg (· + 1) (ih _)

/-! ## The caller's duties (R175, R212, R217) -/

/-- Whether a decoder is live in the pair (R131). -/
def blockLive {PS : Type} (b : BlockState PS) : Bool := b.life ≠ .uninit

theorem live_of_block {s : State} {b : BlockState ParamSet} (holds : s.block = some b) :
    live s = blockLive b := by
  rw [live, blockLive, (block_eq_some_iff.mp holds).1]

@[simp] theorem blockLive_uninit {PS : Type} : blockLive (.uninit : BlockState PS) = false := rfl

@[simp] theorem blockLive_ready {PS : Type} (st : Triple PS) : blockLive (.ready st) = true := rfl

@[simp] theorem blockLive_active {PS : Type} (st : Triple PS) : blockLive (.active st) = true := rfl

theorem exists_st_of_blockLive {PS : Type} {b : BlockState PS} (live : blockLive b = true) :
    ∃ st, b.st = some st :=
  exists_st_of_ne_uninit (by rintro rfl; cases live)

/-- A command that keeps the duties ends `OK`, and the ones after it keep them where it leads. -/
theorem blockStep_of_obeysContract {PS Q : Type} (P : Params PS Q) (b : BlockState PS) {c : Command}
    {cs : List Command} (duties : obeysContract (blockLive b) (c :: cs) = true) :
    (blockStep P b c).2.status = .ok ∧ obeysContract (blockLive (blockStep P b c).1) cs = true := by
  cases c with
  | create =>
    obtain ⟨notLive, later⟩ : blockLive b = false ∧ obeysContract true cs = true := by
      simpa [obeysContract] using duties
    obtain rfl | ⟨st, live⟩ := uninit_or_live b
    · exact ⟨rfl, later⟩
    · exact absurd (of_decide_eq_false notLive) (not_not.mpr (life_ne_uninit live))
  | reset h =>
    obtain ⟨⟨rfl, live⟩, later⟩ :
        (h = true ∧ blockLive b = true) ∧ obeysContract true cs = true := by
      simpa [obeysContract] using duties
    obtain ⟨st, live⟩ := exists_st_of_blockLive live
    rw [blockStep_reset_live P live]
    exact ⟨rfl, later⟩
  | decode h f o frame =>
    obtain ⟨⟨⟨⟨rfl, rfl⟩, rfl⟩, live⟩, later⟩ :
        (((h = true ∧ f = true) ∧ o = true) ∧ blockLive b = true) ∧
          obeysContract true cs = true := by
      simpa [obeysContract] using duties
    obtain ⟨st, live⟩ := exists_st_of_blockLive live
    rw [blockStep_decode_live P live]
    exact ⟨rfl, later⟩
  | destroy h =>
    cases h with
    | false => exact ⟨rfl, duties⟩
    | true =>
      obtain ⟨live, later⟩ : blockLive b = true ∧ obeysContract false cs = true := by
        simpa [obeysContract] using duties
      obtain ⟨st, live⟩ := exists_st_of_blockLive live
      rw [blockStep_destroy_live P live]
      exact ⟨rfl, later⟩

/-- Along a run of commands that keep the duties each ends `OK`, and none is recorded as
`LIFECYCLE`. -/
theorem run_of_obeysContract (cs : List Command) {s : State} {b : BlockState ParamSet}
    {rest : List Input} (holds : s.block = some b) (next : s.inputs = cs.map presented ++ rest)
    (duties : obeysContract (blockLive b) cs = true) {k : Nat} (hk : k ≤ cs.length) :
    ∃ t : State, Sys2Proof.core.run k s = .next t ∧
      t.lifecycleFault = s.lifecycleFault ∧ (0 < k → lastStatus t = some .ok) := by
  induction k generalizing s b cs with
  | zero => exact ⟨s, core_run_zero s, rfl, fun pos => absurd pos (by decide)⟩
  | succ k ih =>
    match cs with
    | c :: cs =>
      obtain ⟨u, first, block, response, inputs, record⟩ := step_presented holds next
      obtain ⟨ok, duties⟩ := blockStep_of_obeysContract Config.params b duties
      obtain ⟨t, run, same, later⟩ := ih cs block inputs duties (by simpa using hk)
      refine ⟨t, (core_run_succ _ first).trans run, ?_, fun _ => ?_⟩
      · simp [same, record, ok]
      · obtain rfl | pos := Nat.eq_zero_or_pos k
        · obtain rfl : u = t := Host.Outcome.next.inj ((core_run_zero u).symm.trans run)
          simp [lastStatus, response, ok]
        · exact later pos

/-! ## The obligations -/

/-- Settles O48: the four commands against the step function, case by case. -/
theorem commandsAreTheStepFunction : Obligations.CommandsAreTheStepFunction :=
  fun _ _ c holds => exec_command_agrees holds c

/-- Settles O49: by induction on the commands; where there is one, the fold has a last response. -/
theorem runIsTheFoldOfTheStepFunction : Obligations.RunIsTheFoldOfTheStepFunction := by
  intro cs s b rest holds next
  obtain ⟨t, run, block, inputs, responses⟩ := run_eq_blockRun cs holds next
  refine ⟨t, run, block, inputs, fun some_command => ?_⟩
  have some_response : (blockRun Config.params b cs).2 ≠ [] := by
    rw [← List.length_pos_iff, blockRun_responses_length]
    exact List.length_pos_iff.mpr some_command
  rw [responses, List.getLast?_eq_some_getLast some_response, Option.some_or]

/-- Settles O50: the duties are kept along the run, and each step that keeps them ends `OK`. -/
theorem contractKeepsEveryCommandOk : Obligations.ContractKeepsEveryCommandOk := by
  intro cs s b rest holds next duties k hk
  rw [live_of_block holds] at duties
  exact run_of_obeysContract cs holds next duties hk

end Sys2Proof.Proofs.StepFunction
end

section
/-! PROOFS. One step of the block (R19, R50): idling, power-on reset or the instruction presented;
what each may write, that each keeps the invariant of the registers (R23, R24, R31), and that with
the invariant only a word that is no instruction stops the block. -/

namespace Sys2Proof.Proofs.Steps

open Sys2Proof.Machine Sys2Proof.Safety Sys2Proof.Proofs.DecoderOps Sys2Proof.Proofs.Failures
  Sys2Proof.Proofs.RoundTrip Sys2Proof.Proofs.Answers Sys2Proof.Proofs.StepFunction

/-! ## What a step does with what is presented (R50, R198, R210) -/

theorem step_nothing {s : State} (nothing : s.inputs = []) : step s = .next s.idle := by
  rw [step, takeInput_eq_none.mpr nothing]

theorem step_powerOn {s : State} {rest : List Input} (next : s.inputs = .powerOn :: rest) :
    step s = .next (State.powerOnReset { s with inputs := rest }) := by
  have taken : s.takeInput = some (.powerOn, { s with inputs := rest }) :=
    takeInput_eq_some.mpr ⟨rest, next, rfl⟩
  rw [step, taken]

theorem step_decoded {s : State} {w : PortWord} {rest : List Input} {i : Instr}
    (next : s.inputs = .word w :: rest) (decoded : decode w = .ok i) :
    step s = exec i { s with inputs := rest } := by
  rw [step_word next, runWord_of_decode decoded]

/-- A word that stands for no instruction is refused, with the decoder's reason (log entry 7). -/
theorem step_refused {s : State} {w : PortWord} {rest : List Input} {r : Reject}
    (next : s.inputs = .word w :: rest) (rejected : decode w = .error r) :
    step s = .refused (.illegalWord r) := by
  rw [step_word next, runWord, rejected]

/-- Only a word on the engine port can stand for no instruction (R74, R86). -/
theorem reserved_of_decode_error {w : PortWord} {r : Reject} (rejected : decode w = .error r) :
    ∃ G st, w = .eng G st ∧ G.extractLsb' 0 24 ≠ 0#24 := by
  cases w with
  | cmd | unp | dec => cases rejected
  | eng G st =>
    refine ⟨G, st, rfl, fun zero => ?_⟩
    cases (decodeAt_eng_of_zero zero st).symm.trans rejected

/-! ## What an instruction can leave (R20) -/

/-- An instruction is one of the four commands, or it writes no register of the block: it leaves
everything but its outputs, and the engine's scratch buffer without a value (R31). -/
theorem exec_cases {i : Instr} {s t : State} (answers : exec i s = .next t) :
    (∃ c : Command, i = c.toInstr ∧ CommandAnswer s c t) ∨
    ∃ d p, (d = s.diag ∨ d = none) ∧ t = { s with diag := d, ports := p } := by
  have command (c : Command) (answers : exec c.toInstr s = .next t) :
      ∃ c' : Command, c.toInstr = c'.toInstr ∧ CommandAnswer s c' t :=
    ⟨c, rfl, exec_command_answer answers⟩
  cases i with
  | create => exact .inl (command .create answers)
  | reset h => exact .inl (command (.reset h) answers)
  | decode h f o frame => exact .inl (command (.decode h f o frame) answers)
  | destroy h => exact .inl (command (.destroy h) answers)
  | unpack frame =>
    obtain rfl := execUnpack_eq_next.mp answers
    exact .inr ⟨s.diag, _, .inl rfl, rfl⟩
  | decideErrs e1 e2 =>
    obtain rfl := execDecide_eq_next.mp answers
    exact .inr ⟨s.diag, _, .inl rfl, rfl⟩
  | synth g st =>
    obtain rfl := execSynth_eq_next.mp answers
    exact .inr ⟨none, _, .inr rfl, rfl⟩

section answer

variable {c : Command} {s t : State} (answer : CommandAnswer s c t)
include answer

/-- A command that writes a register is one of four (R20). -/
theorem writer_of_registers_changed (changed : t.life ≠ s.life ∨ t.st ≠ s.st) :
    c = .create ∨ c = .reset true ∨ (∃ frame, c = .decode true true true frame) ∨
      c = .destroy true := by
  cases answer with
  | created => exact .inl rfl
  | reset => exact .inr (.inl rfl)
  | decoded => exact .inr (.inr (.inl ⟨_, rfl⟩))
  | released => exact .inr (.inr (.inr rfl))
  | failed | noHandle => simp [failedState] at changed

/-- A command that writes the caller's buffer is a DECODE that ends `OK` (R57). -/
theorem okDecode_of_pcmBuf_changed (changed : t.pcmBuf ≠ s.pcmBuf) :
    ∃ frame, c = .decode true true true frame ∧ lastStatus t = some .ok := by
  cases answer with
  | decoded => exact ⟨_, rfl, rfl⟩
  | failed | created | reset | released | noHandle => exact absurd rfl changed

/-- A command keeps the invariant: each way it can end leaves registers the spec allows (R23, R24).
-/
theorem inv_of_answer (inv : Inv s) : Inv t := by
  have noDiag : s.diag = none := inv.1
  cases answer with
  | failed | noHandle => exact inv
  | created | reset => exact ⟨noDiag, rfl⟩
  | decoded => exact ⟨rfl, rfl⟩
  | released => exact ⟨noDiag, rfl⟩

end answer

/-- Every instruction keeps the invariant. -/
theorem exec_inv {i : Instr} {s t : State} (inv : Inv s) (answers : exec i s = .next t) :
    Inv t := by
  obtain ⟨c, -, answer⟩ | ⟨d, p, scratch, rfl⟩ := exec_cases answers
  · exact inv_of_answer answer inv
  · obtain ⟨noDiag, registers⟩ := inv
    refine ⟨?_, registers⟩
    obtain rfl | rfl := scratch
    · exact noDiag
    · rfl

/-- No instruction clears the model's record (log entry 1). -/
theorem exec_record_sticky {i : Instr} {s t : State} (answers : exec i s = .next t)
    (recorded : s.lifecycleFault = true) : t.lifecycleFault = true := by
  obtain ⟨c, -, answer⟩ | ⟨d, p, -, rfl⟩ := exec_cases answers
  · rw [answer.lifecycleFault, recorded, Bool.true_or]
  · exact recorded

/-! ## Progress (R135) -/

/-- With the invariant the registers hold a state of R136. -/
theorem exists_block_of_inv {s : State} (inv : Inv s) : ∃ b, s.block = some b := by
  obtain ⟨-, registers⟩ := inv
  cases life : s.life with
  | uninit =>
    rw [life] at registers
    exact ⟨.uninit, block_eq_some_iff.mpr ⟨life, registers⟩⟩
  | ready =>
    rw [life] at registers
    exact ⟨.ready _, block_eq_some_iff.mpr ⟨life, registers⟩⟩
  | active =>
    rw [life] at registers
    obtain ⟨st, holds⟩ := Option.isSome_iff_exists.mp registers
    exact ⟨.active st, block_eq_some_iff.mpr ⟨life, holds⟩⟩

/-- With the invariant every command completes, with a response. -/
theorem exec_command_completes {s : State} (inv : Inv s) (c : Command) :
    ∃ t r, exec c.toInstr s = .next t ∧ t.ports.rsp = some r := by
  obtain ⟨b, holds⟩ := exists_block_of_inv inv
  obtain ⟨t, answers, -, response⟩ := exec_command_agrees holds c
  exact ⟨t, _, answers, response⟩

/-- With the invariant every instruction completes. -/
theorem exec_completes {s : State} (inv : Inv s) (i : Instr) : ∃ t, exec i s = .next t := by
  have command (c : Command) : ∃ t, exec c.toInstr s = .next t :=
    let ⟨t, _, answers, _⟩ := exec_command_completes inv c
    ⟨t, answers⟩
  cases i with
  | create => exact command .create
  | reset h => exact command (.reset h)
  | decode h f o frame => exact command (.decode h f o frame)
  | destroy h => exact command (.destroy h)
  | unpack | decideErrs | synth => exact ⟨_, rfl⟩

/-- With the invariant a step completes, or the word presented is no engine call. -/
theorem step_completes {s : State} (inv : Inv s) :
    (∃ t, step s = .next t) ∨
    ∃ w st rest, s.inputs = .word (.eng w st) :: rest ∧ w.extractLsb' 0 24 ≠ 0#24 := by
  match next : s.inputs with
  | [] => exact .inl ⟨_, step_nothing next⟩
  | .powerOn :: rest => exact .inl ⟨_, step_powerOn next⟩
  | .word w :: rest =>
    match decoded : decode w with
    | .ok i =>
      obtain ⟨t, answers⟩ := exec_completes (s := { s with inputs := rest }) inv i
      exact .inl ⟨t, (step_decoded next decoded).trans answers⟩
    | .error r =>
      obtain ⟨G, st, rfl, reserved⟩ := reserved_of_decode_error decoded
      exact .inr ⟨G, st, rest, rfl, reserved⟩

/-! ## The obligations -/

/-- Settles O46: a step idles, resets or runs an instruction, and each of these keeps the invariant.
-/
theorem everyStepKeepsTheInvariant : Obligations.EveryStepKeepsTheInvariant := by
  intro s t inv stepped
  obtain ⟨-, rfl⟩ | ⟨rest, -, rfl⟩ | ⟨w, i, rest, -, -, answers⟩ := step_cases stepped
  · exact inv
  · exact ⟨rfl, rfl⟩
  · exact exec_inv (s := { s with inputs := rest }) inv answers

/-- Settles O26: what a command records, and that no other step touches the record. -/
theorem lifecycleRecordIsSticky : Obligations.LifecycleRecordIsSticky := by
  refine ⟨fun c s t answers => (exec_command_answer answers).lifecycleFault,
    fun s t stepped recorded => ?_⟩
  obtain ⟨-, rfl⟩ | ⟨rest, -, rfl⟩ | ⟨w, i, rest, -, -, answers⟩ := step_cases stepped
  · exact recorded
  · exact recorded
  · exact exec_record_sticky answers recorded

/-- Settles O34: of all that a step can be, only an `OK` DECODE writes the buffer. -/
theorem onlyAnOkDecodeWritesPcm : Obligations.OnlyAnOkDecodeWritesPcm := by
  intro s t stepped changed
  obtain ⟨-, rfl⟩ | ⟨rest, -, rfl⟩ | ⟨w, i, rest, next, decoded, answers⟩ := step_cases stepped
  · exact absurd rfl changed
  · exact absurd rfl changed
  · obtain ⟨c, rfl, answer⟩ | ⟨d, p, -, rfl⟩ := exec_cases answers
    · obtain ⟨frame, rfl, ok⟩ := okDecode_of_pcmBuf_changed answer changed
      exact ⟨w, rest, frame, next, decoded, ok⟩
    · exact absurd rfl changed

/-- Settles O40: of all that a step can be, only these write `life` or `st`. -/
theorem onlyTheseStepsWriteRegisters : Obligations.OnlyTheseStepsWriteRegisters := by
  intro s t stepped changed
  obtain ⟨-, rfl⟩ | ⟨rest, next, rfl⟩ | ⟨w, i, rest, next, decoded, answers⟩ := step_cases stepped
  · simp at changed
  · exact ⟨rest, .inl next⟩
  · refine ⟨rest, .inr ⟨w, i, next, decoded, ?_⟩⟩
    obtain ⟨c, rfl, answer⟩ | ⟨d, p, -, rfl⟩ := exec_cases answers
    · obtain rfl | rfl | ⟨frame, rfl⟩ | rfl := writer_of_registers_changed answer changed
      · exact .inl rfl
      · exact .inr (.inl rfl)
      · exact .inr (.inr (.inl ⟨frame, rfl⟩))
      · exact .inr (.inr (.inr rfl))
    · simp at changed

/-- Settles O47: the invariant leaves DECODE no register without a value to read. -/
theorem nothingStopsTheBlock : Obligations.NothingStopsTheBlock :=
  ⟨fun _ inv => step_completes inv, fun _ c inv => exec_command_completes inv c⟩

/-- Settles O7: the decoder's two cases on the engine port, and the step of the second. -/
theorem engineWordWithGroup3IsRefused : Obligations.EngineWordWithGroup3IsRefused := by
  refine ⟨fun w st => ⟨fun ⟨i, decoded⟩ => ?_, fun zero => ⟨_, decodeAt_eng_of_zero zero st⟩⟩,
    fun s w st rest next reserved => step_refused next (decodeAt_eng_of_ne reserved st)⟩
  by_contra reserved
  cases (decodeAt_eng_of_ne reserved st).symm.trans decoded

/-- Settles O41: the word taken is decoded and run. -/
theorem stepRunsTheDecodedInstruction : Obligations.StepRunsTheDecodedInstruction :=
  fun _ _ _ _ next decoded => step_decoded next decoded

/-- Settles O42: with nothing to take the block idles. -/
theorem idleStepHoldsTheRegisters : Obligations.IdleStepHoldsTheRegisters :=
  fun _ nothing => step_nothing nothing

/-- Settles O43: power-on reset is taken like a word. -/
theorem powerOnResetStep : Obligations.PowerOnResetStep := fun _ _ next => step_powerOn next

/-- Settles O44: the reset state idles into itself, step after step. -/
theorem valuesAfterPowerOnReset : Obligations.ValuesAfterPowerOnReset := by
  refine ⟨rfl, rfl, rfl, rfl, rfl, rfl, rfl, fun k => ?_⟩
  induction k with
  | zero => exact core_run_zero State.reset
  | succ k ih => exact (core_run_succ k (step_nothing State.reset_inputs)).trans ih

/-- Settles O45: UNINIT with no value in `st` and none in the scratch buffer. -/
theorem powerOnResetHasTheInvariant : Obligations.PowerOnResetHasTheInvariant :=
  ⟨State.reset_diag, State.reset_st⟩

end Sys2Proof.Proofs.Steps
end

section
/-! PROOFS. DECIDE at every width (R101 to R108): the adder on wires never wraps, its gate is the
comparator, and the accepted pairs are a triangle of 36. -/

namespace Sys2Proof.Proofs.Decide

open Sys2Proof.Machine Sys2Proof.Proofs.Muting

/-! ## The adder and the gate on wires (R101, R108) -/

section wires

variable {w : Nat} (e1 e2 : BitVec w)

/-- Two counts of `w` bits add up to at most `2^(w+1) − 2` (R101). -/
theorem sum_le : e1.toNat + e2.toNat ≤ 2 ^ (w + 1) - 2 := by
  have lt1 := e1.isLt
  have lt2 := e2.isLt
  omega

/-- The adder is one bit wider than its inputs, and so never wraps (R101). -/
theorem adderBits_toNat : (adderBits e1 e2).toNat = e1.toNat + e2.toNat := by
  have bound := sum_le e1 e2
  have pos := Nat.two_pow_pos (w + 1)
  rw [adderBits, BitVec.toNat_add, BitVec.toNat_setWidth_of_le (Nat.le_succ w),
    BitVec.toNat_setWidth_of_le (Nat.le_succ w)]
  exact Nat.mod_eq_of_lt (by omega)

/-- No wire above bit 2 is set exactly when the number is below 8. -/
theorem acceptGate_iff (total : BitVec (w + 1)) : acceptGate total = true ↔ total.toNat ≤ 7 := by
  have gate : acceptGate total = true ↔ ∀ i < w + 1, 3 ≤ i → total.getLsbD i = false := by
    simp [acceptGate]
  rw [gate]
  constructor
  · intro clear
    have below : total.toNat < 2 ^ 3 := Nat.lt_pow_two_of_testBit _ fun i hi => by
      rw [BitVec.testBit_toNat]
      by_cases wire : i < w + 1
      · exact clear i wire hi
      · exact BitVec.getLsbD_of_ge total i (by omega)
    omega
  · intro small i _ hi
    have below : total.toNat < 2 ^ i :=
      calc total.toNat < 2 ^ 3 := by omega
        _ ≤ 2 ^ i := Nat.pow_le_pow_right (by decide) hi
    rw [← BitVec.testBit_toNat, Nat.testBit_lt_two_pow below]

/-- The gate on the adder's wires is the comparison with 7 (R102, R108). -/
theorem acceptGate_adderBits :
    acceptGate (adderBits e1 e2) = (verdict e1.toNat e2.toNat).accepted := by
  rw [Bool.eq_iff_iff, acceptGate_iff, adderBits_toNat, verdict_accepted_iff]

/-- Counts of fewer than 3 bits never add up to more than 7 (C8). -/
theorem acceptGate_of_narrow (narrow : w < 3) : acceptGate (adderBits e1 e2) = true := by
  have bound := sum_le e1 e2
  have power : 2 ^ (w + 1) ≤ 2 ^ 3 := Nat.pow_le_pow_right (by decide) (by omega)
  rw [acceptGate_iff, adderBits_toNat]
  omega

end wires

/-! ## The accepted pairs (R107) -/

/-- The pairs of counts with a sum up to 7, among the counts up to 7. -/
def acceptedPairs : Finset (Nat × Nat) :=
  (Finset.range 8 ×ˢ Finset.range 8).filter fun e => e.1 + e.2 ≤ 7

/-- An accepted pair has no count above 7, so these are all of them (R107). -/
theorem mem_acceptedPairs {e : Nat × Nat} :
    e ∈ acceptedPairs ↔ (verdict e.1 e.2).accepted = true := by
  rw [acceptedPairs, Finset.mem_filter, Finset.mem_product, Finset.mem_range, Finset.mem_range,
    verdict_accepted_iff]
  omega

/-- A verdict does not tell its two counts apart (R107). -/
theorem verdict_comm (e1 e2 : Nat) : verdict e1 e2 = verdict e2 e1 := by
  rw [verdict, verdict, totalErrors, totalErrors, Nat.add_comm]

/-! ## The obligations -/

/-- Settles O15: the sum fits the adder's extra bit, and the gate reads it as the comparator does.
-/
theorem adderNeverWrapsAndGateCompares : Obligations.AdderNeverWrapsAndGateCompares :=
  fun _ e1 e2 => ⟨adderBits_toNat e1 e2, (adderBits_toNat e1 e2).trans_le (sum_le e1 e2),
    acceptGate_adderBits e1 e2, acceptGate_of_narrow e1 e2⟩

/-- Settles O16: the accepted pairs, among the 64 pairs of counts up to 7. -/
theorem thirtySixPairsAreAccepted : Obligations.ThirtySixPairsAreAccepted :=
  ⟨acceptedPairs, by decide, fun _ => mem_acceptedPairs⟩

/-- Settles O17: the comparison with 7 is one of the sum of the two counts. -/
theorem verdictIsSymmetricAndAntitone : Obligations.VerdictIsSymmetricAndAntitone := by
  refine ⟨verdict_comm, fun e1 e2 e1' e2' le1 le2 accepted => ?_, fun e1 e2 accepted => ?_,
    fun e1 e2 => ⟨Nat.le_add_right e1 e2, Nat.le_add_left e2 e1⟩⟩
  · rw [verdict_accepted_iff] at accepted ⊢
    omega
  · rw [verdict_accepted_iff] at accepted
    omega

end Sys2Proof.Proofs.Decide
end

section
/-! PROOFS. The packing of a response as one vector (R70), at every `ERR_W`: the fields of a
concatenation are read back as its slices. -/

namespace Sys2Proof.Proofs.Packing

open Sys2Proof.Machine Sys2Proof.Proofs.Muting

/-- Sample `n` is wires `16n + 15 : 16n` of the sample bus (R70). -/
theorem pcmBus_slice (pcm : PcmFrame) {n : Nat} (hn : n < 160) :
    (pcmBus pcm).extractLsb' (16 * n) 16 = pcm[n] := by
  apply BitVec.eq_of_getLsbD_eq
  intro i hi
  have sample_eq : (16 * n + i) / 16 = n := by omega
  have bit_eq : (16 * n + i) % 16 = i := by omega
  rw [BitVec.getLsbD_extractLsb', decide_eq_true hi, Bool.true_and, pcmBus_getLsbD,
    if_pos (by omega), sample_eq, bit_eq]
  simp [Vector.getD, hn]

section response

variable {errW : Nat} (undriven : BitVec (1 + (errW + 1) + 2560)) {r : Response} {d : DecodeData}

/-- Without data the status stands above wires that carry anything (R70, U11). -/
theorem responseBus_of_noData (noData : r.data = none) :
    responseBus errW undriven r = some (statusCode r.status ++ undriven) := by
  rw [responseBus, noData]

/-- With data whose total fits, the status stands above the packed data (R70). -/
theorem responseBus_of_fits (data : r.data = some d) (fits : d.total < 2 ^ (errW + 1)) :
    responseBus errW undriven r =
      some (statusCode r.status ++
        (BitVec.ofBool d.accepted ++ BitVec.ofNat (errW + 1) d.total ++ pcmBus d.pcm)) := by
  simp only [responseBus, data, dataBus, if_pos fits, Option.map_some]

/-- With data whose total does not fit there is no packed form (log entry 4). -/
theorem responseBus_of_wide (data : r.data = some d) (wide : 2 ^ (errW + 1) ≤ d.total) :
    responseBus errW undriven r = none := by
  simp only [responseBus, data, dataBus, if_neg (Nat.not_lt.mpr wide), Option.map_none]

/-- Whatever stands below it, the status is on the top two wires (R70). -/
theorem responseBus_status {v : BitVec (2 + (1 + (errW + 1) + 2560))}
    (packed : responseBus errW undriven r = some v) :
    v.extractLsb' (1 + (errW + 1) + 2560) 2 = statusCode r.status := by
  cases data : r.data with
  | none =>
    obtain rfl := Option.some.inj ((responseBus_of_noData undriven data).symm.trans packed)
    exact BitVec.extractLsb'_append_eq_left
  | some d =>
    obtain fits | wide := Nat.lt_or_ge d.total (2 ^ (errW + 1))
    · obtain rfl := Option.some.inj ((responseBus_of_fits undriven data fits).symm.trans packed)
      exact BitVec.extractLsb'_append_eq_left
    · cases (responseBus_of_wide undriven data wide).symm.trans packed

end response

/-- The flag, the count below it and the samples below that are read back from under a status. -/
theorem dataFields_of_append {errW : Nat} (c : BitVec 2) (a : Bool) (n : BitVec (errW + 1))
    (p : BitVec 2560) :
    (c ++ (BitVec.ofBool a ++ n ++ p)).getLsbD (errW + 1 + 2560) = a ∧
    (c ++ (BitVec.ofBool a ++ n ++ p)).extractLsb' 2560 (errW + 1) = n ∧
    (c ++ (BitVec.ofBool a ++ n ++ p)).extractLsb' 0 2560 = p := by
  refine ⟨?flag, ?count, ?samples⟩
  case flag =>
    rw [BitVec.getLsbD_append, if_pos (by omega), BitVec.getLsbD_append, if_neg (by omega),
      BitVec.getLsbD_append, if_neg (by omega), BitVec.getLsbD_ofBool]
    simp
  case count =>
    rw [BitVec.extractLsb'_append_eq_of_add_le (by omega),
      BitVec.extractLsb'_append_eq_of_le (by omega), Nat.sub_self]
    exact BitVec.extractLsb'_append_eq_right
  case samples =>
    rw [BitVec.extractLsb'_append_eq_of_add_le (by omega)]
    exact BitVec.extractLsb'_append_eq_right

/-! ## The obligation -/

/-- Settles O32: a response has one of three packed forms or none, and each field is a slice of it.
-/
theorem responsePacking : Obligations.ResponsePacking := by
  refine ⟨fun pcm n => pcmBus_slice pcm n.isLt, fun errW undriven r =>
    ⟨fun v packed => responseBus_status undriven packed, fun noData => ?noData,
      fun d data fits => ?data, fun d data wide => responseBus_of_wide undriven data wide,
      fun e1 e2 fits1 fits2 => ?sum⟩⟩
  case noData =>
    exact ⟨_, responseBus_of_noData undriven noData, BitVec.extractLsb'_append_eq_right⟩
  case data =>
    obtain ⟨flag, count, samples⟩ := dataFields_of_append (statusCode r.status) d.accepted
      (BitVec.ofNat (errW + 1) d.total) (pcmBus d.pcm)
    refine ⟨_, responseBus_of_fits undriven data fits, flag, ?_, samples⟩
    rw [count, BitVec.toNat_ofNat, Nat.mod_eq_of_lt fits]
  case sum =>
    rw [verdict_total]
    omega

end Sys2Proof.Proofs.Packing
end

section
/-! PROOFS. Runs of the step function R136: the state carried from frame to frame (R138), and a
system of instances that cannot tell each other's commands (R33, R52). -/

namespace Sys2Proof.Proofs.Runs

open Sys2Proof.Machine Sys2Proof.Proofs.Muting Sys2Proof.Proofs.DecoderOps

section runs

variable {PS Q : Type} (P : Params PS Q)

/-! ## The state from frame to frame (R133, R138) -/

/-- What DECODE answers for one engine result (R100, R141). -/
def frameResponse (r : EngineResult PS) : Response :=
  ⟨.ok, some ⟨r.pcm, (verdict r.e1 r.e2).total, (verdict r.e1 r.e2).accepted⟩⟩

/-- DECODE of a live pair in terms of the engine's result (R133). -/
theorem blockStep_decode_eq {b : BlockState PS} {st : Triple PS} (live : b.st = some st)
    (frame : AmbeFrame) :
    blockStep P b (.decode true true true frame) =
      (.active (P.engine (unpack frame) st P.qHigh).st,
        frameResponse (P.engine (unpack frame) st P.qHigh)) :=
  blockStep_decode_live P live frame

/-- A verdict is told by the sum of its counts (R100). -/
theorem verdict_eq_iff {e1 e2 e1' e2' : Nat} :
    verdict e1 e2 = verdict e1' e2' ↔ e1 + e2 = e1' + e2' :=
  ⟨congrArg Verdict.total, fun sum => by rw [verdict, verdict, totalErrors, totalErrors, sum]⟩

/-- Two responses to DECODE agree when the samples and the sum of the counts do (R138). -/
theorem frameResponse_eq_iff {r r' : EngineResult PS} :
    frameResponse r = frameResponse r' ↔ r.pcm = r'.pcm ∧ r.e1 + r.e2 = r'.e1 + r'.e2 := by
  constructor
  · intro same
    obtain ⟨pcm, total, -⟩ := DecodeData.mk.inj (Option.some.inj (Response.mk.inj same).2)
    exact ⟨pcm, total⟩
  · rintro ⟨pcm, sum⟩
    rw [frameResponse, frameResponse, pcm, verdict_eq_iff.mpr sum]

/-! ## Instances (R33, R52) -/

section forInstance

variable {α : Type} (i : Nat) (a : α) (l : List (Nat × α))

@[simp] theorem forInstance_nil : forInstance i ([] : List (Nat × α)) = [] := rfl

@[simp] theorem forInstance_cons_self : forInstance i ((i, a) :: l) = a :: forInstance i l := by
  simp [forInstance]

@[simp] theorem forInstance_cons_other {j : Nat} (other : j ≠ i) :
    forInstance i ((j, a) :: l) = forInstance i l := by
  simp [forInstance, other]

theorem forInstance_append (l' : List (Nat × α)) :
    forInstance i (l ++ l') = forInstance i l ++ forInstance i l' :=
  List.filterMap_append

end forInstance

/-- A command to number `i` of the system is a step of that number alone, with its response. -/
theorem systemStep_self {sys : BlockSystem PS} {i : Nat} {b : BlockState PS}
    (at_i : sys[i]? = some b) (c : Command) :
    (systemStep P sys i c).1[i]? = some (blockStep P b c).1 ∧
      forInstance i (systemStep P sys i c).2 = [(blockStep P b c).2] := by
  obtain ⟨inBounds, entry⟩ := List.getElem?_eq_some_iff.mp at_i
  simp [systemStep, inBounds, entry]

/-- A command to another number leaves number `i` as it is, and none of its responses is `i`'s. -/
theorem systemStep_other (sys : BlockSystem PS) {i j : Nat} (other : j ≠ i) (c : Command) :
    (systemStep P sys j c).1[i]? = sys[i]? ∧ forInstance i (systemStep P sys j c).2 = [] := by
  unfold systemStep
  split
  next => exact ⟨rfl, rfl⟩
  next => simp [List.getElem?_set_ne other, other]

/-- Each number of an interleaving runs its own commands and gives its own responses (R52). -/
theorem systemRun_forInstance (sched : List (Nat × Command)) {sys : BlockSystem PS} {i : Nat}
    {b : BlockState PS} (at_i : sys[i]? = some b) :
    (systemRun P sys sched).1[i]? = some (blockRun P b (forInstance i sched)).1 ∧
      forInstance i (systemRun P sys sched).2 = (blockRun P b (forInstance i sched)).2 := by
  induction sched generalizing sys b with
  | nil => exact ⟨at_i, rfl⟩
  | cons e sched ih =>
    obtain ⟨j, c⟩ := e
    rw [systemRun, forInstance_append]
    by_cases own : j = i
    · subst own
      obtain ⟨next, response⟩ := systemStep_self P at_i c
      obtain ⟨state, responses⟩ := ih next
      rw [forInstance_cons_self, blockRun]
      exact ⟨state, by rw [response, responses, List.singleton_append]⟩
    · obtain ⟨same, silent⟩ := systemStep_other P sys own c
      rw [forInstance_cons_other i c sched own, silent, List.nil_append]
      exact ih (same.trans at_i)

end runs

/-! ## The obligations -/

/-- Settles O39: the two runs differ in the triple `B` is decoded from, and a response tells of an
engine result its samples and the sum of its counts. -/
theorem continuityOfTheState : Obligations.ContinuityOfTheState := by
  intro PS Q P b st A B live s1 r1 r2 dA dB
  have first : blockStep P b dA = (.active s1, frameResponse (P.engine (unpack A) st P.qHigh)) :=
    blockStep_decode_eq P live A
  have carried : blockStep P (.active s1) dB = (.active r1.st, frameResponse r1) :=
    blockStep_decode_eq P rfl B
  have restarted : blockStep P (.ready P.stateDefault) dB = (.active r2.st, frameResponse r2) :=
    blockStep_decode_eq P rfl B
  have reset : blockStep P (.active s1) (.reset true) = (.ready P.stateDefault, ⟨.ok, none⟩) :=
    blockStep_reset_live P rfl
  simp [blockRun, first, carried, reset, restarted, frameResponse_eq_iff]

/-- Settles O51: by induction on the interleaving; a command is number `i`'s own or leaves it. -/
theorem instancesAreIndependent : Obligations.InstancesAreIndependent :=
  fun P _ sched _ _ at_i => systemRun_forInstance P sched at_i

end Sys2Proof.Proofs.Runs
end

section
/-! PROOFS. The reference host's stream (R161 to R168) against the block's own answers. On a live
decoder the loop whose writes suffice issues one DECODE a record and tallies the answers in order;
the counters and the output are then facts about that tally. A loop whose writes do not suffice ends
at the accepted frame it cannot write. -/

namespace Sys2Proof.Proofs.HostStreams

open Sys2Proof.Machine Sys2Proof.Proofs.DecoderOps Sys2Proof.Proofs.HostFiles
  Sys2Proof.Proofs.HostExit

section host

variable {PS Q : Type} (P : Params PS Q)

/-! ## The block's answers to a list of records (R133) -/

/-- The commands the loop issues: one DECODE for each record (R161). -/
def recordCommands (records : List AmbeFrame) : List Command :=
  records.map (Command.decode true true true)

/-- The data a block in state `b` answers to a DECODE for each of the records. -/
def recordAnswers (b : BlockState PS) (records : List AmbeFrame) : List DecodeData :=
  (blockRun P b (recordCommands records)).2.filterMap (·.data)

/-- The frames a block accepts are the answers that say so. -/
theorem acceptedFrom_eq_countP (b : BlockState PS) (records : List AmbeFrame) :
    acceptedFrom P b records = (recordAnswers P b records).countP (·.accepted) := rfl

/-- The first record's answer comes first. -/
theorem recordAnswers_cons {b b' : BlockState PS} {d : DecodeData} {frame : AmbeFrame}
    (answers : blockStep P b (.decode true true true frame) = (b', ⟨.ok, some d⟩))
    (rest : List AmbeFrame) :
    recordAnswers P b (frame :: rest) = d :: recordAnswers P b' rest := by
  simp [recordAnswers, recordCommands, blockRun, answers]

/-- A live decoder answers every record with data. -/
theorem recordAnswers_length {b : BlockState PS} {st : Triple PS} (live : b.st = some st)
    (records : List AmbeFrame) : (recordAnswers P b records).length = records.length := by
  induction records generalizing b st with
  | nil => rfl
  | cons frame rest ih =>
    obtain ⟨st', d, answers⟩ := blockStep_decode_answers P live frame
    rw [recordAnswers_cons P answers, List.length_cons, List.length_cons,
      ih (b := .active st') rfl]

/-! ## The host's tally (R163, R164) -/

/-- The tally after a list of answers whose output can be written. -/
def addFrames (answers : List DecodeData) (t : HostTally) : HostTally :=
  answers.foldl (fun t d => t.addFrame d) t

section tally

variable (d : DecodeData) (answers : List DecodeData) (t : HostTally)

@[simp] theorem addFrames_nil : addFrames [] t = t := rfl

@[simp] theorem addFrames_cons :
    addFrames (d :: answers) t = addFrames answers (t.addFrame d) := rfl

@[simp] theorem addFrame_frames : (t.addFrame d).frames = t.frames + 1 := rfl

@[simp] theorem addFrame_errors : (t.addFrame d).errors = t.errors + d.total := rfl

@[simp] theorem addFrame_muted :
    (t.addFrame d).muted = if d.accepted then t.muted else t.muted + 1 := rfl

@[simp] theorem addFrame_out :
    (t.addFrame d).out = if d.accepted then t.out ++ serialise d.pcm else t.out := rfl

/-- Every answer is a frame (R163). -/
theorem addFrames_frames : (addFrames answers t).frames = t.frames + answers.length := by
  induction answers generalizing t with
  | nil => rfl
  | cons d answers ih => rw [addFrames_cons, ih, addFrame_frames, List.length_cons]; omega

/-- Muted frames count towards the errors like the others (R163). -/
theorem addFrames_errors :
    (addFrames answers t).errors = t.errors + (answers.map (·.total)).sum := by
  induction answers generalizing t with
  | nil => rfl
  | cons d answers ih =>
    rw [addFrames_cons, ih, addFrame_errors, List.map_cons, List.sum_cons, Nat.add_assoc]

/-- The muted frames are the rejected ones (R163). -/
theorem addFrames_muted :
    (addFrames answers t).muted = t.muted + answers.countP fun d => !d.accepted := by
  induction answers generalizing t with
  | nil => rfl
  | cons d answers ih =>
    rw [addFrames_cons, ih, addFrame_muted, List.countP_cons]
    cases d.accepted with
    | false => simp; omega
    | true => simp

/-- The output is the accepted frames' samples in order (R164, R166). -/
theorem addFrames_out :
    (addFrames answers t).out =
      t.out ++ (answers.filter (·.accepted)).flatMap fun d => serialise d.pcm := by
  induction answers generalizing t with
  | nil => exact (List.append_nil _).symm
  | cons d answers ih =>
    rw [addFrames_cons, ih, addFrame_out, List.filter_cons]
    cases d.accepted <;> simp

end tally

/-- Every accepted frame is 320 bytes of output (R165). -/
theorem flatMap_serialise_length (answers : List DecodeData) :
    (answers.flatMap fun d => serialise d.pcm).length = 320 * answers.length := by
  simp [List.length_flatMap, Nat.mul_comm]

/-! ## The loop (R161) -/

/-- A loop whose writes suffice issues every command and tallies every answer. -/
theorem hostLoop_complete {b : BlockState PS} {st : Triple PS} (live : b.st = some st)
    (t : HostTally) {writes : Option Nat} (records : List AmbeFrame)
    (enough : writes.any (· < acceptedFrom P b records) = false) :
    hostLoop P b t writes records =
      { tally := addFrames (recordAnswers P b records) t
        block := (blockRun P b (recordCommands records)).1
        commands := recordCommands records
        failure := none } := by
  induction records generalizing b st t writes with
  | nil => rfl
  | cons frame rest ih =>
    obtain ⟨st', d, answers⟩ := blockStep_decode_answers P live frame
    rw [acceptedFrom_cons answers] at enough
    have goesOn : ¬(d.accepted = true ∧ writes = some 0) := by
      rintro ⟨accepted, rfl⟩
      simp [accepted] at enough
    have enough_after : (if d.accepted then writes.map (· - 1) else writes).any
        (· < acceptedFrom P (.active st') rest) = false := by
      cases accepted : d.accepted with
      | false => simpa [accepted] using enough
      | true =>
        have more : writes ≠ some 0 := fun zero => goesOn ⟨accepted, zero⟩
        simpa [any_map_pred_lt more, accepted] using enough
    rw [hostLoop_cons_continue answers rest goesOn, ih (b := .active st') rfl _ enough_after,
      recordAnswers_cons P answers, addFrames_cons]
    simp [recordCommands, blockRun, answers]

/-- A loop whose writes do not suffice has written as many frames as it could (R168). -/
theorem hostLoop_short_out {b : BlockState PS} {st : Triple PS} (live : b.st = some st)
    (t : HostTally) {n : Nat} (records : List AmbeFrame) (short : n < acceptedFrom P b records) :
    (hostLoop P b t (some n) records).tally.out.length = t.out.length + 320 * n := by
  induction records generalizing b st t n with
  | nil => cases short
  | cons frame rest ih =>
    obtain ⟨st', d, answers⟩ := blockStep_decode_answers P live frame
    rw [acceptedFrom_cons answers] at short
    cases accepted : d.accepted with
    | false =>
      rw [hostLoop_cons_continue answers rest (by simp [accepted])]
      have after := ih (b := .active st') rfl (t.addFrame d) (by simpa [accepted] using short)
      simpa [accepted] using after
    | true =>
      cases n with
      | zero => rw [hostLoop_cons_short answers rest accepted]; rfl
      | succ n =>
        rw [hostLoop_cons_continue answers rest (by simp)]
        have after := ih (b := .active st') rfl (t.addFrame d) (n := n)
          (by simpa [accepted] using short)
        rw [addFrame_out, if_pos accepted, List.length_append, serialise_length] at after
        simp only [accepted, if_true, Option.map_some, Nat.add_sub_cancel]
        rw [after]
        omega

/-- The loop issues nothing but DECODEs (R161). -/
theorem hostLoop_commands (b : BlockState PS) (t : HostTally) (writes : Option Nat)
    (records : List AmbeFrame) :
    ∀ c ∈ (hostLoop P b t writes records).commands, ∃ frame, c = .decode true true true frame := by
  induction records generalizing b t writes with
  | nil => simp [hostLoop]
  | cons frame rest ih =>
    simp only [hostLoop]
    split
    next => simp
    next =>
      split
      next => simp
      next =>
        intro c issued
        obtain rfl | issued := List.mem_cons.mp issued
        · exact ⟨frame, rfl⟩
        · exact ih _ _ _ c issued

/-! ## A stream on a fresh block (R161, R167) -/

/-- The data a fresh block answers to CREATE and a DECODE for each record of a file. -/
def fileAnswers (file : List Byte) : List DecodeData :=
  recordAnswers P (.ready P.stateDefault) (hostRecords file)

/-- A file has an answer for each of its records (R160). -/
theorem fileAnswers_length (file : List Byte) : (fileAnswers P file).length = file.length / 9 :=
  (recordAnswers_length P rfl _).trans (hostRecords_length file)

/-- The outcome of a stream that is not given up. -/
def goodOutcome (file : List Byte) : HostOutcome PS :=
  { HostOutcome.untouched 0 none .uninit with
    tally := addFrames (fileAnswers P file) .start
    reportsCounters := true
    warning := hostHasPartial file
    commands := .create :: recordCommands (hostRecords file) ++ [.destroy true] }

/-- Whatever the pair, it is in UNINIT after DESTROY with the handle (R134). -/
theorem blockStep_destroy_block (b : BlockState PS) :
    (blockStep P b (.destroy true)).1 = .uninit := by
  cases b <;> rfl

theorem hostDecode_complete {file : List Byte} {writes : Option Nat}
    (enough : writes.any (· < acceptedFrames P file) = false) :
    hostDecode P .uninit file writes = goodOutcome P file := by
  have created : blockStep P .uninit .create = (.ready P.stateDefault, ⟨.ok, none⟩) := rfl
  have loop := hostLoop_complete P (b := .ready P.stateDefault) rfl .start (hostRecords file) enough
  simp [hostDecode, created, loop, goodOutcome, fileAnswers, blockStep_destroy_block,
    HostOutcome.untouched]

theorem hostDecode_short {file : List Byte} {n : Nat} (short : n < acceptedFrames P file) :
    let loop := hostLoop P (.ready P.stateDefault) .start (some n) (hostRecords file)
    hostDecode P .uninit file (some n) =
      { HostOutcome.untouched 1 (some .shortWrite) loop.block with
        tally := loop.tally
        commands := .create :: loop.commands } := by
  intro loop
  have created : blockStep P .uninit .create = (.ready P.stateDefault, ⟨.ok, none⟩) := rfl
  have failure : loop.failure = some .shortWrite :=
    (hostLoop_failure P rfl .start (some n) (hostRecords file)).trans
      (if_pos (decide_eq_true short))
  simp only [hostDecode, created]
  rw [if_neg (by simp), failure]

/-- On a live block CREATE fails, and is the one command issued (R161, R182). -/
theorem hostDecode_live {b : BlockState PS} {st : Triple PS} (live : b.st = some st)
    (file : List Byte) (writes : Option Nat) :
    hostDecode P b file writes =
      { HostOutcome.untouched 1 (some (.commandFailed .allocFail)) b with
        commands := [.create] } := by
  simp [hostDecode, blockStep_create_live P live]

/-- A run of two parts is the second from where the first ends. -/
theorem blockRun_append (b : BlockState PS) (cs cs' : List Command) :
    blockRun P b (cs ++ cs') =
      ((blockRun P (blockRun P b cs).1 cs').1,
        (blockRun P b cs).2 ++ (blockRun P (blockRun P b cs).1 cs').2) := by
  induction cs generalizing b with
  | nil => rfl
  | cons c cs ih => simp only [List.cons_append, blockRun, ih]

/-- DESTROY answers without data (R70). -/
theorem blockStep_destroy_data (b : BlockState PS) (h : Bool) :
    (blockStep P b (.destroy h)).2.data = none := by
  cases h <;> cases b <;> rfl

/-- Of the commands of a good stream only the DECODEs are answered with data (R70). -/
theorem goodOutcome_answers (file : List Byte) :
    (blockRun P .uninit (goodOutcome P file).commands).2.filterMap (·.data) =
      fileAnswers P file := by
  have created : blockStep P .uninit .create = (.ready P.stateDefault, ⟨.ok, none⟩) := rfl
  simp [goodOutcome, blockRun, blockRun_append, created, blockStep_destroy_data, fileAnswers,
    recordAnswers]

/-- A good stream counts every record, and writes 320 bytes for each that is not muted (R163 to
R165). -/
theorem goodOutcome_tally (file : List Byte) :
    (goodOutcome P file).tally.frames = file.length / 9 ∧
    (goodOutcome P file).tally.muted ≤ (goodOutcome P file).tally.frames ∧
    (goodOutcome P file).tally.out.length =
      320 * ((goodOutcome P file).tally.frames - (goodOutcome P file).tally.muted) := by
  have frames : (goodOutcome P file).tally.frames = (fileAnswers P file).length :=
    (addFrames_frames (fileAnswers P file) _).trans (Nat.zero_add _)
  have muted :
      (goodOutcome P file).tally.muted = (fileAnswers P file).countP fun d => !d.accepted :=
    (addFrames_muted (fileAnswers P file) _).trans (Nat.zero_add _)
  have out : (goodOutcome P file).tally.out.length =
      320 * (fileAnswers P file).countP (·.accepted) := by
    rw [List.countP_eq_length_filter, ← flatMap_serialise_length]
    exact congrArg List.length (addFrames_out (fileAnswers P file) _)
  have split : (fileAnswers P file).length =
      (fileAnswers P file).countP (·.accepted) +
        (fileAnswers P file).countP fun d => !d.accepted := by
    simpa using List.length_eq_countP_add_countP (·.accepted) (l := fileAnswers P file)
  refine ⟨frames.trans (fileAnswers_length P file), ?_, ?_⟩
  · rw [frames, muted]
    exact List.countP_le_length
  · rw [out, frames, muted, split, Nat.add_sub_cancel]

end host

/-! ## The obligations -/

/-- Settles O54: the outcome of a good stream, and its tally over as many answers as records. -/
theorem hostStreamOfAGoodFile : Obligations.HostStreamOfAGoodFile := by
  intro PS Q P file o
  have good : o = goodOutcome P file := hostDecode_complete P rfl
  rw [good]
  obtain ⟨frames, muted, out⟩ := goodOutcome_tally P file
  exact ⟨rfl, rfl, rfl, rfl, rfl, rfl, frames, muted, out⟩

/-- Settles O55: the tally of a good stream over the answers the block gives. -/
theorem hostCountsWhatTheBlockAnswers : Obligations.HostCountsWhatTheBlockAnswers := by
  intro PS Q P file o ds
  have good : o = goodOutcome P file := hostDecode_complete P rfl
  have answers : ds = fileAnswers P file := by
    rw [← goodOutcome_answers, ← good]
  have tally : o.tally = addFrames ds .start := by
    rw [good, answers]
    rfl
  rw [tally]
  exact ⟨(addFrames_frames ds _).trans (Nat.zero_add _),
    (addFrames_errors ds _).trans (Nat.zero_add _), (addFrames_muted ds _).trans (Nat.zero_add _),
    addFrames_out ds _⟩

/-- Settles O57: a file that does not open, a CREATE that fails and a write that falls short, and
that writes which suffice are as good as any number of them. -/
theorem hostGivesUp : Obligations.HostGivesUp := by
  intro PS Q P b
  refine ⟨fun _ _ => ⟨rfl, rfl, rfl⟩, fun _ _ => ⟨rfl, rfl, rfl⟩, fun file writes notFresh => ?live,
    fun file n short => ?short, fun file n enough => ?enough⟩
  case live =>
    obtain ⟨st, live⟩ := exists_st_of_ne_uninit notFresh
    rw [hostMain_decode_open, hostDecode_live P live]
    exact ⟨rfl, rfl, rfl⟩
  case short =>
    have written := hostLoop_short_out P (b := .ready P.stateDefault) rfl .start _ short
    have decodes := hostLoop_commands P (.ready P.stateDefault) .start (some n) (hostRecords file)
    rw [hostMain_decode_open, hostDecode_short P short]
    refine ⟨rfl, written.trans (Nat.zero_add _), fun issued => ?_, rfl, rfl⟩
    obtain same | issued := List.mem_cons.mp issued
    · cases same
    · obtain ⟨frame, same⟩ := decodes _ issued
      cases same
  case enough =>
    have suffices_n : (some n).any (· < acceptedFrames P file) = false :=
      decide_eq_false (Nat.not_lt.mpr enough)
    exact (hostDecode_complete P suffices_n).trans (hostDecode_complete P rfl).symm

end Sys2Proof.Proofs.HostStreams
end
